-- ==== Sys2Proof/Word.lean ====
section
/-! DEFINITION. The bit-vector widths the spec names: bytes, samples, host addresses and host transaction words. -/

namespace Sys2Proof

/-- A byte, 8 bits (00_scope.md R15). -/
abbrev Byte := BitVec 8

/-- A band sample, 3 bits (00_scope.md R8, 10_state.md R21). -/
abbrev Sample := BitVec 3

/-- A host byte address, 18 bits (20_memory.md R50, R51). -/
abbrev HostAddr := BitVec 18

/-- The host transaction word of format `X`, 27 bits numbered 26 down to 0 (30_encoding.md R70). -/
abbrev HostWord := BitVec 27

end Sys2Proof
end

