-- ==== Sys2Proof/Config.lean ====
section
/-! DEFINITION. What one implementation fixes (00_scope.md R9 to R12), the two configurations of R13, and the free
values: constants with no body, for what the spec leaves unspecified. -/

namespace Sys2Proof

/-- The memories whose start contents the spec leaves unspecified (10_state.md R39, 60_exceptions.md R162). -/
inductive Region where
  | grid
  | fb
  | dc
  | dev
  deriving DecidableEq, Repr

/-- The parameters of the block. A model takes them as arguments and no operation changes them (00_scope.md R9, R12):
here every state carries them (log 1). -/
structure Config where
  /-- `COLS`, the columns of the PixelGrid. -/
  cols : Nat
  /-- `ROWS`, the rows of the PixelGrid. -/
  rows : Nat
  /-- `WIDTH`, the device width in pixels. -/
  width : Nat
  /-- `HEIGHT`, the device height in pixels. -/
  height : Nat
  /-- `CHUNK_MAX`, the largest number of data bytes in one burst. -/
  chunkMax : Nat
  /-- `INIT_SEQ`, the power-up command sequence. -/
  initSeq : List Byte
  /-- `PAGE_SEL`, entry `p` is the page-select command of page `p`. -/
  pageSel : List (List Byte)
  deriving DecidableEq, Repr

/-- The FREE VALUE of byte `k` of a memory that nothing has written since its contents last became unspecified, the
`epoch`-th time they did (10_state.md R39, 93_implementation_defined.md U1; log 3). No body: nothing can be proved of it. -/
opaque Config.freeByte (r : Region) (epoch k : Nat) : Byte

/-- The FREE VALUE of `cur_page` of a display device whose state is unknown (70_reset_and_hazards.md R171; log 9). -/
opaque Config.freeCurPage (epoch : Nat) : Nat

/-- The FREE VALUE of `cur_col` of a display device whose state is unknown (70_reset_and_hazards.md R171; log 9). -/
opaque Config.freeCurCol (epoch : Nat) : Nat

/-- The FREE number of tokens the sink took of a command that a reset cut short (70_reset_and_hazards.md R171; log 9). -/
opaque Config.freeTokensTaken (epoch : Nat) : Nat

/-- The *Small* configuration of 00_scope.md R13, with the example `INIT_SEQ` and `PAGE_SEL` of 95_test_vectors.md. -/
def Config.small : Config where
  cols := 4
  rows := 4
  width := 8
  height := 16
  chunkMax := 4
  initSeq := [0xAE#8, 0xAF#8]
  pageSel := [[0xB0#8], [0xB1#8]]

/-- The *Panel* configuration of 00_scope.md R13, with the example `INIT_SEQ` and `PAGE_SEL` of 95_test_vectors.md. -/
def Config.panel : Config where
  cols := 16
  rows := 8
  width := 128
  height := 64
  chunkMax := 16
  initSeq := [0xAE#8, 0xAF#8]
  pageSel := [[0xB0#8], [0xB1#8], [0xB2#8], [0xB3#8], [0xB4#8], [0xB5#8], [0xB6#8], [0xB7#8]]

end Sys2Proof
end

