-- ==== Sys2Proof/Syntax.lean ====
section
/-! DEFINITION. The syntax of the block's operations: one constructor per row of spec/opcode_table.json (30_encoding.md R75). -/

namespace Sys2Proof

/-- The eight operations a host transaction word can ask for (30_encoding.md R73 to R75). -/
inductive Instr where
  /-- `RD addr`, 40_host_access.md R90. The `wdata` field of its word is ignored (30_encoding.md R77). -/
  | rd (addr : HostAddr)
  /-- `WR addr, wdata` with `addr` not `CMD`, 40_host_access.md R91. -/
  | wr (addr : HostAddr) (wdata : Byte)
  /-- `PACK`, 41_band_codec.md R101. -/
  | pack
  /-- `UNPACK`, 41_band_codec.md R104. -/
  | unpack
  /-- `RASTER`, 42_rasterizer.md R111. -/
  | raster
  /-- `INIT`, 43_display_init_and_pager.md R120. -/
  | init
  /-- `RENDER`, 43_display_init_and_pager.md R125. -/
  | render
  /-- `COMMIT`, 44_dirty_detector.md R135. -/
  | commit
  deriving DecidableEq, Repr

/-- The assembler mnemonic, as spec/opcode_table.json spells it. -/
def Instr.mnemonic : Instr → String
  | .rd _ => "RD"
  | .wr _ _ => "WR"
  | .pack => "PACK"
  | .unpack => "UNPACK"
  | .raster => "RASTER"
  | .init => "INIT"
  | .render => "RENDER"
  | .commit => "COMMIT"

end Sys2Proof
end

