-- ==== Sys2Proof/WellFormed.lean ====
section
/-! DEFINITION. Which instructions a word can stand for, and which configurations the spec gives a meaning. -/

namespace Sys2Proof

/-- `WR` never addresses `CMD`: such a word is a command (30_encoding.md R73, 40_host_access.md R91). The operand widths
are in the types. -/
def Instr.wellFormed : Instr → Bool
  | .rd _ => true
  | .wr addr _ => addr != 0#18
  | .pack => true
  | .unpack => true
  | .raster => true
  | .init => true
  | .render => true
  | .commit => true

/-- The bounds of 00_scope.md R10 on the geometry. -/
def Config.geometryOk (c : Config) : Bool :=
  decide (1 ≤ c.cols ∧ c.cols ≤ 255) && decide (1 ≤ c.rows ∧ c.rows ≤ 255) &&
    decide (1 ≤ c.width ∧ c.width ≤ 255) && decide (8 ≤ c.height ∧ c.height ≤ 248 ∧ c.height % 8 = 0)

/-- The bounds of 00_scope.md R12 on the display port's parameters: a burst bound in `1..255` and one non-empty
page-select command per page. -/
def Config.portOk (c : Config) : Bool :=
  decide (1 ≤ c.chunkMax ∧ c.chunkMax ≤ 255) && decide (c.pageSel.length = c.height / 8) &&
    c.pageSel.all fun bytes => !bytes.isEmpty

/-- The configurations the spec gives a meaning (00_scope.md R10, R12; 93_implementation_defined.md U3). -/
def Config.wf (c : Config) : Bool := c.geometryOk && c.portOk

end Sys2Proof
end

