-- ==== Sys2Proof/Decode.lean ====
section
/-! DEFINITION. Decoding and encoding of host transaction words (30_encoding.md). -/

namespace Sys2Proof

/-- Why a word stands for no instruction: a command write with an unassigned opcode (30_encoding.md R76). -/
inductive Reject where
  | illegalCommand (opcode : Byte)
  deriving DecidableEq, Repr

/-- Bit 26, `we` (30_encoding.md R71). -/
def weField (w : HostWord) : Bool := w.getLsbD 26

/-- Bits 25:8, `addr` (30_encoding.md R71). -/
def addrField (w : HostWord) : HostAddr := w.extractLsb' 8 18

/-- Bits 7:0, `wdata` (30_encoding.md R71). -/
def wdataField (w : HostWord) : Byte := w.extractLsb' 0 8

/-- The command opcodes (30_encoding.md R74). -/
def commandTable : List (Byte × Instr) :=
  [(0x01#8, .pack), (0x02#8, .unpack), (0x03#8, .raster), (0x04#8, .init), (0x05#8, .render), (0x06#8, .commit)]

/-- Step 3 of 30_encoding.md R73: the opcode of a write to `CMD`. -/
def decodeCommand (opcode : Byte) : Except Reject Instr :=
  match commandTable.lookup opcode with
  | some i => .ok i
  | none => .error (.illegalCommand opcode)

/-- Decoding, in the order of 30_encoding.md R73. -/
def decode (w : HostWord) : Except Reject Instr :=
  if weField w = false then .ok (.rd (addrField w))
  else if addrField w = 0#18 then decodeCommand (wdataField w)
  else .ok (.wr (addrField w) (wdataField w))

/-- The fields put together: `word = (we << 26) | (addr << 8) | wdata` (30_encoding.md R71). -/
def wordOf (we : Bool) (addr : HostAddr) (wdata : Byte) : HostWord :=
  BitVec.ofNat 27 (we.toNat <<< 26 ||| addr.toNat <<< 8 ||| wdata.toNat)

/-- The canonical word of an instruction (30_encoding.md R71, R74, R77). -/
def encode : Instr → HostWord
  | .rd addr => wordOf false addr 0x00#8
  | .wr addr wdata => wordOf true addr wdata
  | .pack => wordOf true 0#18 0x01#8
  | .unpack => wordOf true 0#18 0x02#8
  | .raster => wordOf true 0#18 0x03#8
  | .init => wordOf true 0#18 0x04#8
  | .render => wordOf true 0#18 0x05#8
  | .commit => wordOf true 0#18 0x06#8

/-- A row of the opcode table: the fixed bits of its words, and its mnemonic. -/
structure OpcodeRow where
  mask : HostWord
  pattern : HostWord
  mnemonic : String
  deriving DecidableEq, Repr

/-- The eight rows of spec/opcode_table.json. -/
def opcodeRows : List OpcodeRow :=
  [⟨0x4000000#27, 0x0000000#27, "RD"⟩, ⟨0x4000000#27, 0x4000000#27, "WR"⟩,
   ⟨0x7FFFFFF#27, 0x4000001#27, "PACK"⟩, ⟨0x7FFFFFF#27, 0x4000002#27, "UNPACK"⟩,
   ⟨0x7FFFFFF#27, 0x4000003#27, "RASTER"⟩, ⟨0x7FFFFFF#27, 0x4000004#27, "INIT"⟩,
   ⟨0x7FFFFFF#27, 0x4000005#27, "RENDER"⟩, ⟨0x7FFFFFF#27, 0x4000006#27, "COMMIT"⟩]

/-- A word matches a row when its masked bits are the row's pattern. -/
def OpcodeRow.covers (r : OpcodeRow) (w : HostWord) : Bool := w &&& r.mask == r.pattern

/-- The host word a table number of `nbits` bits stands for. A word has 27 bits (30_encoding.md R70), so a number with a
bit above bit 26 is no word (log 14). -/
def wordOfNat (nbits w : Nat) : Option HostWord :=
  if w % 2 ^ nbits < 2 ^ 27 then some (BitVec.ofNat 27 (w % 2 ^ nbits)) else none

/-- The instruction the decoder reads from the table word `w` of `nbits` bits (none where it refuses). -/
def decodeTableWord (nbits w : Nat) : Option Instr :=
  match wordOfNat nbits w with
  | some word => (decode word).toOption
  | none => none

end Sys2Proof
end

