-- ==== Sys2Proof/Machine/Geometry.lean ====
section
/-! DEFINITION. The constants derived from the geometry parameters (00_scope.md R11). -/

namespace Sys2Proof

/-- `PAGES = HEIGHT div 8`. -/
def Config.pages (c : Config) : Nat := c.height / 8

/-- `BW = WIDTH div COLS`, the width of a cell in pixels. -/
def Config.bw (c : Config) : Nat := c.width / c.cols

/-- `BH = HEIGHT div ROWS`, the height of a cell in pixels. -/
def Config.bh (c : Config) : Nat := c.height / c.rows

/-- `GRID_SIZE = COLS * ROWS`. -/
def Config.gridSize (c : Config) : Nat := c.cols * c.rows

/-- `FB_SIZE = WIDTH * PAGES`. -/
def Config.fbSize (c : Config) : Nat := c.width * c.pages

/-- The bytes of `PAGE_SEL(p)` (00_scope.md R12). -/
def Config.pageSelect (c : Config) (p : Nat) : List Byte := c.pageSel.getD p []

end Sys2Proof
end

