-- ==== Sys2Proof/Machine/State.lean ====
section
/-! DEFINITION. The machine's state as plain data, its outcomes' reasons, and the state after reset. -/

namespace Sys2Proof.Machine

/-- The contents of one memory: (index, byte) pairs with strictly rising indexes. An index that is not listed holds no
written value (log 3). -/
abbrev Memory := List Host.Cell

/-- The error conditions of a host transaction (60_exceptions.md R151). -/
inductive ErrorCode where
  | illegalCmd
  | notInit
  | badAddr
  | roWrite
  deriving DecidableEq, Repr

/-- What the host port answers to one transaction (20_memory.md R50). -/
structure Response where
  rdata : Byte
  err : Bool
  deriving DecidableEq, Repr

/-- One token of the display port (20_memory.md R64): `dc` is true for a data byte. -/
structure Token where
  dc : Bool
  byte : Byte
  last : Bool
  deriving DecidableEq, Repr

/-- One burst of the display port: `C(b)`, a command burst of exactly one byte, or `D(b0 b1 ... bn)`
(20_memory.md R64, R65). -/
inductive Burst where
  | command (b : Byte)
  | data (bytes : List Byte)
  deriving DecidableEq, Repr

/-- What a command emits, before it is spelled in bursts: the events 60_exceptions.md R162 lets a model use so that the
reference sink can tell the page selects from the power-up sequence. -/
inductive Emission where
  | initSeq
  | pageSelect (p : Nat)
  | data (bytes : List Byte)
  deriving DecidableEq, Repr

/-- The display sink: the reference sink of 60_exceptions.md R162, and how much it will still accept. -/
structure Sink where
  /-- How many more tokens the sink will accept; `none`: every one, the fairness premise of 60_exceptions.md R160 (log 11). -/
  room : Option Nat
  /-- `DEV`, the display device's memory. -/
  dev : Memory
  /-- MODEL's own: how often the device became unknown; it indexes the free values of `DEV` (log 9). -/
  devEpoch : Nat
  /-- `cur_page`. -/
  curPage : Nat
  /-- `cur_col`. -/
  curCol : Nat
  deriving DecidableEq, Repr

/-- What the host does to the block next (70_reset_and_hazards.md R187). -/
inductive HostEvent where
  /-- A transaction on the host port (20_memory.md R50). -/
  | request (word : HostWord)
  /-- Reset between transactions (70_reset_and_hazards.md R170). -/
  | reset
  /-- Reset while the command of this word runs (70_reset_and_hazards.md R171). -/
  | resetDuring (word : HostWord)
  deriving DecidableEq, Repr

/-- Why the machine stops. -/
inductive Fault where
  /-- Raised by INIT and COMMIT when the display sink will not accept all the tokens the command emits: the command never
  finishes and the port stays not-ready (20_memory.md R66, 70_reset_and_hazards.md R181). A stuck state. Safe (log 11). -/
  | sinkStalled
  deriving DecidableEq, Repr

/-- Why the model gives no meaning. -/
inductive Refusal where
  /-- Raised by an arm of `exec` whose instruction has no meaning yet; no arm raises it. Safe. -/
  | notModelled (mnemonic : String)
  /-- Raised by a step of a machine whose configuration is outside the bounds of 00_scope.md R10 and R12
  (93_implementation_defined.md U3). Safe (log 12). -/
  | badConfiguration
  /-- Raised by the meaning of the ill-formed term `WR CMD`, which no word decodes to (40_host_access.md R91). Safe (log 14). -/
  | notAWriteInstruction
  deriving DecidableEq, Repr

/-- The whole state: the block's (10_state.md R20), its output `TRACE` (R35), the two other agents (00_scope.md R7), the
parameters (00_scope.md R9, R12) and the model's own counters. -/
structure State where
  /-- The parameters; no step changes them (10_state.md R36; log 1). -/
  cfg : Config
  /-- `V[0..15]`, the BandVector (10_state.md R21). -/
  v : Vector Sample 16
  /-- `F[0..5]`, the Frame (10_state.md R22). -/
  f : Vector Byte 6
  /-- `GRID`, the PixelGrid (10_state.md R24). -/
  grid : Memory
  /-- `FB`, the Framebuffer (10_state.md R25). -/
  fb : Memory
  /-- `DC`, the DirtyCache (10_state.md R26, R34). -/
  dc : Memory
  /-- `FFR`, force full redraw (10_state.md R27). -/
  ffr : Bool
  /-- `INITD`, the Display Driver has been initialised (10_state.md R28). -/
  initd : Bool
  /-- `ERR`, the error latch (10_state.md R29). -/
  err : Byte
  /-- `TRACE`, every burst emitted since reset, in order (10_state.md R35). -/
  trace : List Burst
  /-- The display sink (60_exceptions.md R160, R162). -/
  sink : Sink
  /-- What the host will do, next first: the host holds the program (10_state.md R23; log 6). -/
  pending : List HostEvent
  /-- The responses given, oldest first (70_reset_and_hazards.md R184; log 7). -/
  responses : List Response
  /-- MODEL's own: how many resets were applied; it indexes the free values of `GRID`, `FB`, `DC` (log 3). -/
  epoch : Nat
  /-- MODEL's own: the run is marked gone wrong, a RENDER read a GRID byte nothing had written
  (70_reset_and_hazards.md R176; log 4). -/
  programFault : Bool
  deriving DecidableEq, Repr

/-- The display sink before anything was sent to it (60_exceptions.md R162; log 10, log 11). -/
def Sink.start : Sink := { room := none, dev := [], devEpoch := 0, curPage := 0, curCol := 0 }

/-- The machine of configuration `c` right after reset (10_state.md R39, 70_reset_and_hazards.md R170). -/
def State.resetWith (c : Config) : State where
  cfg := c
  v := Vector.replicate 16 0#3
  f := Vector.replicate 6 0x00#8
  grid := []
  fb := []
  dc := []
  ffr := true
  initd := false
  err := 0x00#8
  trace := []
  sink := Sink.start
  pending := []
  responses := []
  epoch := 0
  programFault := false

/-- The machine right after reset. Its configuration is the *Small* one (log 2). -/
def State.reset : State := State.resetWith Config.small

end Sys2Proof.Machine
end

