-- ==== Sys2Proof/Machine/Ops.lean ====
section
/-! DEFINITION. The shared operations: reading and writing memories, answering and refusing a transaction, emitting on the
display port, and reset. -/

namespace Sys2Proof.Machine

/-! ### Memories -/

/-- What was last written at index `k`; `none` where nothing was (log 3). -/
def Memory.read : Memory → Nat → Option Byte
  | [], _ => none
  | cell :: m, k => if cell.1 = k then some cell.2 else Memory.read m k

/-- The cells of consecutive bytes from index `base` on. -/
def Memory.cellsFrom : Nat → List Byte → Memory
  | _, [] => []
  | base, b :: bs => (base, b) :: Memory.cellsFrom (base + 1) bs

/-- Write consecutive bytes from index `base` on. Every write of the model is one of these. -/
def Memory.writeBytes (m : Memory) (base : Nat) (bytes : List Byte) : Memory :=
  m.filter (fun cell => cell.1 < base) ++ Memory.cellsFrom base bytes ++
    m.filter (fun cell => base + bytes.length ≤ cell.1)

/-- The canonical form: strictly rising indexes. An unlisted index holds no value, so no entry equals what one reads as. -/
def Memory.wf : Memory → Bool
  | [] => true
  | cell :: m => m.all (fun other => cell.1 < other.1) && Memory.wf m

/-- Every index below `size` has been written. -/
def Memory.filled (m : Memory) (size : Nat) : Bool := (List.range size).all fun k => (Memory.read m k).isSome

/-- `GRID[k]`: the written byte, or the free value of a byte nothing wrote since reset (10_state.md R24, R39). -/
def State.gridByte (s : State) (k : Nat) : Byte := (Memory.read s.grid k).getD (Config.freeByte .grid s.epoch k)

/-- `FB[k]` (10_state.md R25, R39). -/
def State.fbByte (s : State) (k : Nat) : Byte := (Memory.read s.fb k).getD (Config.freeByte .fb s.epoch k)

/-- `DC[k]` (10_state.md R26, R39). -/
def State.dcByte (s : State) (k : Nat) : Byte := (Memory.read s.dc k).getD (Config.freeByte .dc s.epoch k)

/-- `DEV[k]` of the reference sink (60_exceptions.md R162). -/
def Sink.devByte (d : Sink) (k : Nat) : Byte := (Memory.read d.dev k).getD (Config.freeByte .dev d.devEpoch k)

/-- The bytes a memory of `size` bytes takes from a function of the index. -/
def bytesOf (size : Nat) (byteAt : Nat → Byte) : List Byte := (List.range size).map byteAt

/-! ### Single updates of the state -/

/-- `V[i] <- x`. -/
def State.setSample (s : State) (i : Fin 16) (x : Sample) : State := { s with v := s.v.set i x }

/-- `V <- xs`. -/
def State.setSamples (s : State) (xs : Vector Sample 16) : State := { s with v := xs }

/-- `F[k] <- b`. -/
def State.setFrameByte (s : State) (k : Fin 6) (b : Byte) : State := { s with f := s.f.set k b }

/-- `F <- bs`. -/
def State.setFrame (s : State) (bs : Vector Byte 6) : State := { s with f := bs }

/-- Write consecutive bytes of `GRID`. -/
def State.writeGrid (s : State) (base : Nat) (bytes : List Byte) : State :=
  { s with grid := Memory.writeBytes s.grid base bytes }

/-- Write consecutive bytes of `FB`. -/
def State.writeFb (s : State) (base : Nat) (bytes : List Byte) : State :=
  { s with fb := Memory.writeBytes s.fb base bytes }

/-- Write consecutive bytes of `DC`. -/
def State.writeDc (s : State) (base : Nat) (bytes : List Byte) : State :=
  { s with dc := Memory.writeBytes s.dc base bytes }

/-- `FFR <- b`. -/
def State.setFfr (s : State) (b : Bool) : State := { s with ffr := b }

/-- `INITD <- b`. -/
def State.setInitd (s : State) (b : Bool) : State := { s with initd := b }

/-- `ERR <- 0x00`: the only way out of a latched error but reset (60_exceptions.md R158). -/
def State.clearErr (s : State) : State := { s with err := 0x00#8 }

/-- Mark the run as gone wrong when `bad` (70_reset_and_hazards.md R176; log 4). -/
def State.markProgramFault (s : State) (bad : Bool) : State := { s with programFault := s.programFault || bad }

/-! ### Ending a transaction -/

/-- The response of a transaction that raised nothing (20_memory.md R50). -/
def State.respond (s : State) (rdata : Byte) : State :=
  { s with responses := s.responses ++ [{ rdata := rdata, err := false }] }

/-- The code of an error (60_exceptions.md R151). -/
def ErrorCode.code : ErrorCode → Byte
  | .illegalCmd => 0x01#8
  | .notInit => 0x02#8
  | .badAddr => 0x03#8
  | .roWrite => 0x04#8

/-- `raise <E>`: the first error since the last clear is latched, the response carries `err = 1` and `rdata = 0x00`, and
nothing else changes (60_exceptions.md R152). There is no return from it (60_exceptions.md R158). -/
def State.raise (s : State) (e : ErrorCode) : State :=
  { s with
    err := if s.err = 0x00#8 then e.code else s.err
    responses := s.responses ++ [{ rdata := 0x00#8, err := true }] }

/-- Go on with `k` from a next state; a stop stays a stop. -/
def andThen (o : Host.Outcome State Fault Refusal) (k : State → Host.Outcome State Fault Refusal) :
    Host.Outcome State Fault Refusal :=
  match o with
  | .next t => k t
  | .fault r => .fault r
  | .refused r => .refused r

/-! ### The display port -/

/-- The tokens of a burst: the last one carries the `last` mark (20_memory.md R64). -/
def Burst.tokens : Burst → List Token
  | .command b => [{ dc := false, byte := b, last := true }]
  | .data bytes =>
    bytes.mapIdx fun j b => { dc := true, byte := b, last := decide (j + 1 = bytes.length) }

/-- How many tokens a list of bursts holds. -/
def tokenCount (bursts : List Burst) : Nat := (bursts.map fun b => b.tokens.length).sum

/-- The bursts an emission is spelled in: one single-byte command burst per byte of a command sequence, one data burst per
chunk (20_memory.md R65). -/
def Emission.bursts (c : Config) : Emission → List Burst
  | .initSeq => c.initSeq.map .command
  | .pageSelect p => (c.pageSelect p).map .command
  | .data bytes => [.data bytes]

/-- What the reference sink does with an emission (60_exceptions.md R162): a page select sets the cursor, each data byte
goes to the cursor's column while that is on the page and moves it on, `INIT_SEQ` has no effect. -/
def Sink.take (c : Config) (d : Sink) : Emission → Sink
  | .initSeq => d
  | .pageSelect p => { d with curPage := p, curCol := 0 }
  | .data bytes =>
    { d with
      dev := Memory.writeBytes d.dev (d.curPage * c.width + d.curCol) (bytes.take (c.width - d.curCol))
      curCol := d.curCol + bytes.length }

/-- The sink will take `n` more tokens (70_reset_and_hazards.md R181; log 11). -/
def Sink.accepts (d : Sink) (n : Nat) : Bool :=
  match d.room with
  | none => true
  | some room => decide (n ≤ room)

/-- The sink after it took `n` tokens. -/
def Sink.spend (d : Sink) (n : Nat) : Sink := { d with room := d.room.map fun room => room - n }

/-- The state after the sink accepted the tokens of `es` (20_memory.md R66). -/
def State.emitted (s : State) (es : List Emission) : State :=
  { s with
    trace := s.trace ++ es.flatMap (Emission.bursts s.cfg)
    sink := es.foldl (Sink.take s.cfg) (s.sink.spend (tokenCount (es.flatMap (Emission.bursts s.cfg)))) }

/-- `emit`: every token is accepted by the sink before the command goes on; if the sink will not take them all, the
command never finishes (20_memory.md R66, 70_reset_and_hazards.md R181). -/
def State.emit (s : State) (es : List Emission) : Host.Outcome State Fault Refusal :=
  if s.sink.accepts (tokenCount (es.flatMap (Emission.bursts s.cfg))) then .next (s.emitted es)
  else .fault .sinkStalled

/-! ### Reset -/

/-- Reset between transactions (70_reset_and_hazards.md R170, 10_state.md R39): the memories become unspecified again, so
they list nothing and their free values are those of the next `epoch`. The display device is not reset (R172). -/
def State.applyReset (s : State) : State :=
  { s with
    v := Vector.replicate 16 0#3
    f := Vector.replicate 6 0x00#8
    grid := []
    fb := []
    dc := []
    ffr := true
    initd := false
    err := 0x00#8
    trace := []
    epoch := s.epoch + 1 }

/-- The display device's state becomes unknown, as does how many tokens it took (70_reset_and_hazards.md R171; log 9). -/
def Sink.lost (d : Sink) : Sink where
  room := d.room.map fun room => room - Config.freeTokensTaken (d.devEpoch + 1)
  dev := []
  devEpoch := d.devEpoch + 1
  curPage := Config.freeCurPage (d.devEpoch + 1)
  curCol := Config.freeCurCol (d.devEpoch + 1)

/-- The display device is in an unknown state. -/
def State.loseDisplay (s : State) : State := { s with sink := s.sink.lost }

/-! ### The host's queue -/

/-- The state once the host's next event has been taken off its queue. -/
def State.withPending (s : State) (events : List HostEvent) : State := { s with pending := events }

end Sys2Proof.Machine
end

