-- ==== Sys2Proof/Machine/DirtyDetector.lean ====
section
/-! DEFINITION. The dirty-region detector: COMMIT (44_dirty_detector.md). -/

namespace Sys2Proof.Machine

/-- Some byte of page `p` differs between `FB` and `DC` (44_dirty_detector.md R136). -/
def State.pageDirty (s : State) (p : Nat) : Bool :=
  (List.range s.cfg.width).any fun x => s.fbByte (p * s.cfg.width + x) != s.dcByte (p * s.cfg.width + x)

/-- Page `p` is sent by a COMMIT: forced or dirty (44_dirty_detector.md R136). -/
def State.pageSent (s : State) (p : Nat) : Bool := s.ffr || s.pageDirty p

/-- The pages a COMMIT sends, ascending. Page `p`'s test reads only page `p` of `FB` and `DC`, which no other page's turn
of the loop of R135 changes, so all tests are made at the start (log 17). -/
def State.sentPages (s : State) : List Nat := (List.range s.cfg.pages).filter s.pageSent

/-- The bytes of page `p` of `FB`, column 0 first. -/
def State.pageBytes (s : State) (p : Nat) : List Byte :=
  bytesOf s.cfg.width fun x => s.fbByte (p * s.cfg.width + x)

/-- Consecutive chunks of at most `n` bytes: `ceil(length / n)` of them (44_dirty_detector.md R137). -/
def chunks (n : Nat) (bytes : List Byte) : List (List Byte) :=
  (List.range ((bytes.length + n - 1) / n)).map fun j => (bytes.drop (j * n)).take n

/-- What a COMMIT emits for a sent page: the page select, then the page's bytes in chunks (44_dirty_detector.md R137). -/
def State.pageEmissions (s : State) (p : Nat) : List Emission :=
  .pageSelect p :: (chunks s.cfg.chunkMax (s.pageBytes p)).map .data

/-- `DC` page `p` becomes equal to `FB` page `p` (44_dirty_detector.md R138). -/
def State.cachePage (s : State) (p : Nat) : State := s.writeDc (p * s.cfg.width) (s.pageBytes p)

/-- The inner loop of R135 as it is written, `fuel` turns of it from column `off` on. -/
def State.chunkLoop (s : State) (base : Nat) : Nat → Nat → List (List Byte)
  | 0, _ => []
  | fuel + 1, off =>
    if off < s.cfg.width then
      let n := min s.cfg.chunkMax (s.cfg.width - off)
      bytesOf n (fun x => s.fbByte (base + off + x)) :: State.chunkLoop s base fuel (off + n)
    else []

/-- One turn of the outer loop of R135 as it is written, on the state the turns before it left. -/
def State.commitPage (s : State) (p : Nat) : State :=
  if s.ffr || s.pageDirty p then
    (List.range s.cfg.width).foldl
      (fun t x => t.writeDc (p * s.cfg.width + x) [t.fbByte (p * s.cfg.width + x)])
      (s.emitted (.pageSelect p :: (s.chunkLoop (p * s.cfg.width) s.cfg.width 0).map .data))
  else s

/-- The loop of R135 as it is written, for a sink that takes every token. COMMIT's meaning is `execCommit`, which tests
all pages first; the two are stated equal (obligation CommitIsTheWrittenLoop). -/
def State.commitLoop (s : State) : State := ((List.range s.cfg.pages).foldl State.commitPage s).setFfr false

/-- `COMMIT` (44_dirty_detector.md R135). -/
def execCommit (s : State) : Host.Outcome State Fault Refusal :=
  if s.initd = false then .next (s.raise .notInit)
  else
    andThen (s.emit (s.sentPages.flatMap s.pageEmissions)) fun t =>
      .next (((s.sentPages.foldl State.cachePage t).setFfr false).respond 0x00#8)

end Sys2Proof.Machine
end

