-- ==== Sys2Proof/Machine/Flags.lean ====
section
/-! DEFINITION. The one status register of the block: a view of three state elements (10_state.md R31). -/

namespace Sys2Proof.Machine

/-- `ERRF`, `STATUS[2]`: the error latch is not clear (10_state.md R31). -/
def State.errorFlag (s : State) : Bool := s.err != 0x00#8

/-- `STATUS`: bit 0 `INITD`, bit 1 `FFR`, bit 2 `ERRF`, bits 7:3 zero (10_state.md R31). -/
def State.statusByte (s : State) : Byte :=
  0#5 ++ BitVec.ofBool s.errorFlag ++ BitVec.ofBool s.ffr ++ BitVec.ofBool s.initd

end Sys2Proof.Machine
end

