-- ==== Sys2Proof/Machine/Operands.lean ====
section
/-! DEFINITION. The operands of RD and WR: the address map (20_memory.md R52), and reading and writing what an address
names. There is one addressing mode, absolute (30_encoding.md R72). -/

namespace Sys2Proof.Machine

/-- What a host address names (20_memory.md R52). -/
inductive Location where
  | cmd
  | status
  | err
  | cols
  | rows
  | width
  | height
  | pages
  | chunk
  | sample (i : Fin 16)
  | frame (k : Fin 6)
  | grid (k : Nat)
  | fb (k : Nat)
  | unmapped
  deriving DecidableEq, Repr

/-- The register page, addresses below 0x10. -/
def locateControl : Nat → Location
  | 0x0 => .cmd
  | 0x1 => .status
  | 0x2 => .err
  | 0x4 => .cols
  | 0x5 => .rows
  | 0x6 => .width
  | 0x7 => .height
  | 0x8 => .pages
  | 0x9 => .chunk
  | _ => .unmapped

/-- The address map on the address as a number (20_memory.md R52, R54, R55, R56). -/
def locateNat (c : Config) (a : Nat) : Location :=
  if a < 0x10 then locateControl a
  else if h : a < 0x20 then .sample ⟨a - 0x10, by omega⟩
  else if h : a < 0x26 then .frame ⟨a - 0x20, by omega⟩
  else if a < 0x10000 then .unmapped
  else if a < 0x20000 then if a - 0x10000 < c.gridSize then .grid (a - 0x10000) else .unmapped
  else if a - 0x20000 < c.fbSize then .fb (a - 0x20000) else .unmapped

/-- What a host address names. It is taken exactly as it stands in the word (30_encoding.md R72). -/
def locate (c : Config) (addr : HostAddr) : Location := locateNat c addr.toNat

/-- The byte a read of a location answers; `none` where it is unmapped (40_host_access.md R90, 10_state.md R33). -/
def State.readLocation (s : State) : Location → Option Byte
  | .cmd => some 0x00#8
  | .status => some s.statusByte
  | .err => some s.err
  | .cols => some (BitVec.ofNat 8 s.cfg.cols)
  | .rows => some (BitVec.ofNat 8 s.cfg.rows)
  | .width => some (BitVec.ofNat 8 s.cfg.width)
  | .height => some (BitVec.ofNat 8 s.cfg.height)
  | .pages => some (BitVec.ofNat 8 s.cfg.pages)
  | .chunk => some (BitVec.ofNat 8 s.cfg.chunkMax)
  | .sample i => some ((s.v[i]).setWidth 8)
  | .frame k => some s.f[k]
  | .grid k => some (s.gridByte k)
  | .fb k => some (s.fbByte k)
  | .unmapped => none

/-- What writing a byte to a location does: a state, or the error it raises (40_host_access.md R91). A write to `CMD`
is a command and no `WR` (30_encoding.md R73): it has no result here. -/
def State.writeLocation (s : State) (d : Byte) : Location → Option (Except ErrorCode State)
  | .cmd => none
  | .status => some (.error .roWrite)
  | .err => some (.ok s.clearErr)
  | .cols => some (.error .roWrite)
  | .rows => some (.error .roWrite)
  | .width => some (.error .roWrite)
  | .height => some (.error .roWrite)
  | .pages => some (.error .roWrite)
  | .chunk => some (.error .roWrite)
  | .sample i => some (.ok (s.setSample i (d.extractLsb' 0 3)))
  | .frame k => some (.ok (s.setFrameByte k d))
  | .grid k => some (.ok (s.writeGrid k [d]))
  | .fb _ => some (.error .roWrite)
  | .unmapped => some (.error .badAddr)

end Sys2Proof.Machine
end

