-- ==== Sys2Proof/Machine/HostAccess.lean ====
section
/-! DEFINITION. Host access: RD and WR (40_host_access.md). -/

namespace Sys2Proof.Machine

/-- `RD addr` (40_host_access.md R90). -/
def execRd (addr : HostAddr) (s : State) : Host.Outcome State Fault Refusal :=
  match s.readLocation (locate s.cfg addr) with
  | some b => .next (s.respond b)
  | none => .next (s.raise .badAddr)

/-- `WR addr, wdata` (40_host_access.md R91). `addr = CMD` is no `WR` (30_encoding.md R73): that term, which no word
decodes to, is refused (log 14). -/
def execWr (addr : HostAddr) (wdata : Byte) (s : State) : Host.Outcome State Fault Refusal :=
  match s.writeLocation wdata (locate s.cfg addr) with
  | some (.ok t) => .next (t.respond 0x00#8)
  | some (.error e) => .next (s.raise e)
  | none => .refused .notAWriteInstruction

end Sys2Proof.Machine
end

