-- ==== Sys2Proof/Machine/BandCodec.lean ====
section
/-! DEFINITION. The Band Codec: `pack`, `unpack`, PACK and UNPACK (41_band_codec.md). -/

namespace Sys2Proof.Machine

/-- The number `W` of R100: sixteen naturals, each masked to 3 bits, sample `i` at bit offset `3*i`. -/
def packNumber (v : Nat → Nat) : Nat := ((List.range 16).map fun i => (v i &&& 7) <<< (3 * i)).sum

/-- `pack(v)[k]` (41_band_codec.md R100), of naturals of any size. -/
def packByte (v : Nat → Nat) (k : Nat) : Byte := BitVec.ofNat 8 ((packNumber v >>> (8 * k)) &&& 0xFF)

/-- The number `W` of R103: the six bytes as one little-endian number (20_memory.md R57). -/
def frameNumber (b : Nat → Byte) : Nat := ((List.range 6).map fun k => (b k).toNat <<< (8 * k)).sum

/-- `unpack(b)[i]` (41_band_codec.md R103). -/
def unpackSample (b : Nat → Byte) (i : Nat) : Sample := BitVec.ofNat 3 ((frameNumber b >>> (3 * i)) &&& 7)

/-- `V[i]` as a number, for the codec and the Rasterizer. -/
def State.sampleNat (s : State) (i : Nat) : Nat := (s.v.getD i 0#3).toNat

/-- `F[k]`, for the codec. -/
def State.frameByte (s : State) (k : Nat) : Byte := s.f.getD k 0x00#8

/-- `PACK` (41_band_codec.md R101). -/
def execPack (s : State) : Host.Outcome State Fault Refusal :=
  .next ((s.setFrame (Vector.ofFn fun k => packByte s.sampleNat k.val)).respond 0x00#8)

/-- `UNPACK` (41_band_codec.md R104). -/
def execUnpack (s : State) : Host.Outcome State Fault Refusal :=
  .next ((s.setSamples (Vector.ofFn fun i => unpackSample s.frameByte i.val)).respond 0x00#8)

end Sys2Proof.Machine
end

