-- ==== Sys2Proof/Machine/Rasterizer.lean ====
section
/-! DEFINITION. The Rasterizer: `raster` and RASTER (42_rasterizer.md). -/

namespace Sys2Proof.Machine

/-- `raster` as the loop of 42_rasterizer.md R110 writes it: `GRID_SIZE` bytes, all clear, then the bars. RASTER's meaning
is `execRaster`, over the closed form; the two are stated equal (obligation RasterLoopIsTheClosedForm). What it draws for a
sample above 7 is the model's choice (log 18). -/
def rasterLoop (c : Config) (sample : Nat → Nat) : List Byte :=
  (List.range (min c.cols 16)).foldl
    (fun g x =>
      (List.range (min c.rows (sample x))).foldl (fun g r => g.set ((c.rows - 1 - r) * c.cols + x) 0x01#8) g)
    (List.replicate c.gridSize 0x00#8)

/-- Cell `(x, y)` of `raster`, the closed form of 42_rasterizer.md R110 (log 17). R110 takes samples in `[0,7]`, and no
other reaches it from the 3-bit `V`; for a larger one the spec is silent (91_not_in_source.md N7,
93_implementation_defined.md U11) and this function draws `min(ROWS, s)` cells, unmasked: DESIGN CHOICE, log 18. -/
def rasterCell (c : Config) (sample : Nat → Nat) (x y : Nat) : Byte :=
  if x < 16 ∧ c.rows - min c.rows (sample x) ≤ y then 0x01#8 else 0x00#8

/-- `raster(s)[k]`: byte `k` is cell `(k mod COLS, k div COLS)` (20_memory.md R54). -/
def rasterByte (c : Config) (sample : Nat → Nat) (k : Nat) : Byte := rasterCell c sample (k % c.cols) (k / c.cols)

/-- `RASTER` (42_rasterizer.md R111). -/
def execRaster (s : State) : Host.Outcome State Fault Refusal :=
  .next ((s.writeGrid 0 (bytesOf s.cfg.gridSize (rasterByte s.cfg s.sampleNat))).respond 0x00#8)

end Sys2Proof.Machine
end

