-- ==== Sys2Proof/Machine/Pager.lean ====
section
/-! DEFINITION. The framebuffer pager: INIT, `page` and RENDER (43_display_init_and_pager.md). -/

namespace Sys2Proof.Machine

/-- `INIT` (43_display_init_and_pager.md R120, R121). -/
def execInit (s : State) : Host.Outcome State Fault Refusal :=
  andThen (s.emit [.initSeq]) fun t =>
    .next
      (((((t.writeFb 0 (bytesOf t.cfg.fbSize fun _ => 0x00#8)).writeDc 0 (bytesOf t.cfg.fbSize fun _ => 0x00#8)).setFfr
        true).setInitd true).respond 0x00#8)

/-- Device pixel `(px, py)` is lit, the closed form of 43_display_init_and_pager.md R124 (log 17). -/
def pixelLit (c : Config) (g : Nat → Byte) (px py : Nat) : Bool :=
  decide (1 ≤ c.bw) && decide (1 ≤ c.bh) && decide (px / c.bw < c.cols) && decide (py / c.bh < c.rows) &&
    g (py / c.bh * c.cols + px / c.bw) != 0x00#8

/-- `page(g)[k]`: bit `j` of the byte of page `k div WIDTH`, column `k mod WIDTH`, is device row `8*page + j`
(10_state.md R25). -/
def pageByte (c : Config) (g : Nat → Byte) (k : Nat) : Byte :=
  BitVec.ofNat 8 ((List.range 8).map fun j => (pixelLit c g (k % c.width) (8 * (k / c.width) + j)).toNat <<< j).sum

/-- The two inner loops of R124 for one cell: its pixels, clipped to the device. -/
def drawCell (c : Config) (cx cy : Nat) (fb : List Byte) : List Byte :=
  (List.range c.bh).foldl
    (fun fb dy =>
      (List.range c.bw).foldl
        (fun fb dx =>
          let px := cx * c.bw + dx
          let py := cy * c.bh + dy
          if px < c.width ∧ py < c.height then
            fb.modify (py / 8 * c.width + px) (fun byte => byte ||| BitVec.ofNat 8 (1 <<< (py % 8)))
          else fb)
        fb)
    fb

/-- `page` as the loops of 43_display_init_and_pager.md R124 write it: `FB_SIZE` bytes, all zero, then the set cells'
pixels. RENDER's meaning is `execRender`, over the closed form; the two are stated equal (obligation
PageLoopIsTheClosedForm). -/
def pageLoop (c : Config) (g : Nat → Byte) : List Byte :=
  (List.range c.rows).foldl
    (fun fb cy =>
      (List.range c.cols).foldl
        (fun fb cx => if g (cy * c.cols + cx) ≠ 0x00#8 then drawCell c cx cy fb else fb) fb)
    (List.replicate c.fbSize 0x00#8)

/-- `RENDER` (43_display_init_and_pager.md R125). A `GRID` byte nothing has written is a free value, carried into `FB`,
and the run is marked (70_reset_and_hazards.md R176, 93_implementation_defined.md U2; log 4). -/
def execRender (s : State) : Host.Outcome State Fault Refusal :=
  if s.initd = false then .next (s.raise .notInit)
  else
    .next
      (((s.writeFb 0 (bytesOf s.cfg.fbSize (pageByte s.cfg s.gridByte))).markProgramFault
        (!Memory.filled s.grid s.cfg.gridSize)).respond 0x00#8)

end Sys2Proof.Machine
end

