-- ==== Sys2Proof/Machine/Dispatch.lean ====
section
/-! DEFINITION. The meaning of every instruction, one arm per constructor. -/

namespace Sys2Proof.Machine

def exec (i : Instr) (s : State) : Host.Outcome State Fault Refusal :=
  match i with
  | .rd addr => Sys2Proof.Machine.execRd addr s
  | .wr addr wdata => Sys2Proof.Machine.execWr addr wdata s
  | .pack => Sys2Proof.Machine.execPack s
  | .unpack => Sys2Proof.Machine.execUnpack s
  | .raster => Sys2Proof.Machine.execRaster s
  | .init => Sys2Proof.Machine.execInit s
  | .render => Sys2Proof.Machine.execRender s
  | .commit => Sys2Proof.Machine.execCommit s

end Sys2Proof.Machine
end

