-- ==== Sys2Proof/Machine/Transact.lean ====
section
/-! DEFINITION. One host event: a transaction word is decoded and performed, or the block is reset; and a run, the fold of
20_memory.md R61 over the host's list. -/

namespace Sys2Proof.Machine

/-- Perform one transaction word: an instruction, or an illegal command (30_encoding.md R73, R76; 60_exceptions.md R153). -/
def performWord (w : HostWord) (s : State) : Host.Outcome State Fault Refusal :=
  match decode w with
  | .ok i => exec i s
  | .error (.illegalCommand _) => .next (s.raise .illegalCmd)

/-- The command of this word emits on the display port: INIT, or a COMMIT. -/
def emitsOnDisplay (w : HostWord) : Bool :=
  match decode w with
  | .ok .init => true
  | .ok .commit => true
  | _ => false

/-- Reset while the command of word `w` runs: the block's own state is that after reset regardless; if the command is one
that emits, the display device's state is unknown (70_reset_and_hazards.md R171; log 9). A RENDER that is cut short has not
completed and does not mark the run, whatever `GRID` bytes were unwritten: DESIGN CHOICE, the spec does not say whether
such a run is a fault of the program (R176; log 9). -/
def resetDuringWord (w : HostWord) (s : State) : State :=
  if emitsOnDisplay w then s.applyReset.loseDisplay else s.applyReset

/-- One event of the host (70_reset_and_hazards.md R187). -/
def performEvent (e : HostEvent) (s : State) : Host.Outcome State Fault Refusal :=
  match e with
  | .request w => performWord w s
  | .reset => .next s.applyReset
  | .resetDuring w => .next (resetDuringWord w s)

/-- One cycle: with nothing presented the block does nothing (00_scope.md R7); a configuration outside the bounds has no
meaning (93_implementation_defined.md U3; log 12). -/
def cycle (s : State) : Host.Outcome State Fault Refusal :=
  if s.cfg.wf = false then .refused .badConfiguration
  else
    match s.pending with
    | [] => .next s
    | e :: es => performEvent e (s.withPending es)

/-- A run (70_reset_and_hazards.md R184): the host's events applied in order, as the fold of 20_memory.md R61. -/
def performAll : List HostEvent → State → Host.Outcome State Fault Refusal
  | [], s => .next s
  | e :: es, s => andThen (performEvent e s) (performAll es)

/-- Perform a list of instructions in order, such as the expansion of a pseudo-instruction (30_encoding.md R79). -/
def execAll : List Instr → State → Host.Outcome State Fault Refusal
  | [], s => .next s
  | i :: is, s => andThen (exec i s) (execAll is)

/-- `s` with the table word `w` of `nbits` bits presented by the host next; a number that is no host word presents
nothing (log 14). -/
def present (s : State) (nbits w : Nat) : State :=
  match wordOfNat nbits w with
  | some word => s.withPending (.request word :: s.pending)
  | none => s

end Sys2Proof.Machine
end

