-- ==== Sys2Proof/Machine/Step.lean ====
section
/-! DEFINITION. The step of the machine. -/

namespace Sys2Proof.Machine

/-- One step: the block takes the host's next event and performs it to completion (00_scope.md R6, 20_memory.md R61). -/
def step (s : State) : Host.Outcome State Fault Refusal := cycle s

/-- `s` with the instruction of table word `w` presented on the host port, so that the next step runs it: the block fetches
nothing, the host holds the program (10_state.md R23; log 6). -/
def State.withFetchWord (s : State) (nbits w : Nat) : State := present s nbits w

end Sys2Proof.Machine
end

