-- ==== Sys2Proof/Machine/Pseudo.lean ====
section
/-! DEFINITION. The assembler's address names and pseudo-instructions (30_encoding.md R78, R79): the host's side, lists of
the eight operations. -/

namespace Sys2Proof.Machine

/-- The address names of 30_encoding.md R78, which stand for the addresses of 20_memory.md R52. -/
inductive AddrName where
  | CMD
  | STATUS
  | ERR
  | COLS
  | ROWS
  | WIDTH
  | HEIGHT
  | PAGES
  | CHUNK
  | V (i : Fin 16)
  | F (k : Fin 6)
  | GRID (k : Nat)
  | FB (k : Nat)
  deriving DecidableEq, Repr

/-- The address a name stands for. -/
def AddrName.addr : AddrName → HostAddr
  | .CMD => 0x00000#18
  | .STATUS => 0x00001#18
  | .ERR => 0x00002#18
  | .COLS => 0x00004#18
  | .ROWS => 0x00005#18
  | .WIDTH => 0x00006#18
  | .HEIGHT => 0x00007#18
  | .PAGES => 0x00008#18
  | .CHUNK => 0x00009#18
  | .V i => BitVec.ofNat 18 (0x00010 + i.val)
  | .F k => BitVec.ofNat 18 (0x00020 + k.val)
  | .GRID k => BitVec.ofNat 18 (0x10000 + k)
  | .FB k => BitVec.ofNat 18 (0x20000 + k)

/-- The pseudo-instructions (30_encoding.md R79). -/
inductive Pseudo where
  | LDV (samples : Vector Byte 16)
  | LDF (bytes : Vector Byte 6)
  | RDV
  | RDF
  | LDG (cells : List Byte)
  | SHOW
  | TICK
  | CLRERR
  deriving DecidableEq, Repr

/-- The expansion of a pseudo-instruction (30_encoding.md R79). `LDG` takes `GRID_SIZE` bytes. -/
def Pseudo.expand : Pseudo → List Instr
  | .LDV samples => (List.finRange 16).map fun i => .wr (AddrName.V i).addr samples[i]
  | .LDF bytes => (List.finRange 6).map fun k => .wr (AddrName.F k).addr bytes[k]
  | .RDV => (List.finRange 16).map fun i => .rd (AddrName.V i).addr
  | .RDF => (List.finRange 6).map fun k => .rd (AddrName.F k).addr
  | .LDG cells => cells.mapIdx fun k b => .wr (AddrName.GRID k).addr b
  | .SHOW => [.render, .commit]
  | .TICK => [.unpack, .raster, .render, .commit]
  | .CLRERR => [.wr AddrName.ERR.addr 0x00#8]

end Sys2Proof.Machine
end

