-- ==== Sys2Proof/Safety.lean ====
section
/-! DEFINITION. What claims are stated in: which addresses are unmapped or read-only, when each error is raised, the
invariants of the machine, and what counts as a safe run. -/

namespace Sys2Proof.Machine

/-- An address 20_memory.md R52 lists as unmapped. -/
abbrev Unmapped (c : Config) (a : Nat) : Prop :=
  a = 0x3 ∨ (0xA ≤ a ∧ a ≤ 0xF) ∨ (0x26 ≤ a ∧ a < 0x10000) ∨
    (0x10000 + c.gridSize ≤ a ∧ a < 0x20000) ∨ (0x20000 + c.fbSize ≤ a ∧ a < 0x40000)

/-- An address 20_memory.md R52 lists as read-only. -/
abbrev ReadOnly (c : Config) (a : Nat) : Prop :=
  a = 0x1 ∨ (0x4 ≤ a ∧ a ≤ 0x9) ∨ (0x20000 ≤ a ∧ a < 0x20000 + c.fbSize)

/-- The condition under which the word `w` raises an error in state `s` (60_exceptions.md R151). -/
def ErrorCode.condition (w : HostWord) (s : State) : ErrorCode → Prop
  | .illegalCmd =>
    weField w = true ∧ (addrField w).toNat = 0 ∧ ((wdataField w).toNat = 0x00 ∨ 0x07 ≤ (wdataField w).toNat)
  | .notInit =>
    weField w = true ∧ (addrField w).toNat = 0 ∧ ((wdataField w).toNat = 0x05 ∨ (wdataField w).toNat = 0x06) ∧
      s.initd = false
  | .badAddr => Unmapped s.cfg (addrField w).toNat
  | .roWrite => weField w = true ∧ ReadOnly s.cfg (addrField w).toNat

/-- A transaction was refused with error code `code`: nothing but the latch and the response changes
(60_exceptions.md R152). -/
def State.refusedWith (s : State) (code : Byte) : State :=
  { s with
    err := if s.err = 0x00#8 then code else s.err
    responses := s.responses ++ [{ rdata := 0x00#8, err := true }] }

/-- `t` is `s` after a transaction that raised nothing and answered `rdata`, but for the fields `t` is then given. -/
def State.answered (s : State) (rdata : Byte) : State :=
  { s with responses := s.responses ++ [{ rdata := rdata, err := false }] }

/-- The invariant every step keeps. -/
structure State.Inv (s : State) : Prop where
  /-- The memories keep their canonical form. -/
  gridCanonical : Memory.wf s.grid = true
  fbCanonical : Memory.wf s.fb = true
  dcCanonical : Memory.wf s.dc = true
  devCanonical : Memory.wf s.sink.dev = true
  /-- No byte is held outside the sizes of 00_scope.md R11. -/
  gridBounded : ∀ cell ∈ s.grid, cell.1 < s.cfg.gridSize
  fbBounded : ∀ cell ∈ s.fb, cell.1 < s.cfg.fbSize
  dcBounded : ∀ cell ∈ s.dc, cell.1 < s.cfg.fbSize
  /-- `ERR` holds a legal code (10_state.md R32). -/
  errLegal : s.err.toNat ≤ 4
  /-- `INITD = 0` implies `FFR = 1` (10_state.md R31). -/
  uninitialisedForces : s.initd = false → s.ffr = true
  /-- Once initialised, every byte of `FB` and `DC` has been written (43_display_init_and_pager.md R120). -/
  initialisedFilled : s.initd = true → Memory.filled s.fb s.cfg.fbSize = true ∧ Memory.filled s.dc s.cfg.fbSize = true

/-- Between COMMITs, once the first COMMIT after the INIT has run, the display shows what the cache holds: `DEV = DC`
(60_exceptions.md R163). -/
def State.DisplayConsistent (s : State) : Prop :=
  s.initd = true → s.ffr = false → ∀ k, k < s.cfg.fbSize → s.sink.devByte k = s.dcByte k

/-- A safe run so far: no transaction was refused, and no RENDER read a GRID byte nothing had written
(60_exceptions.md R158, 70_reset_and_hazards.md R176). -/
def State.safeSoFar (s : State) : Bool := !s.programFault && s.responses.all fun r => !r.err

end Sys2Proof.Machine
end

