-- ==== Sys2Proof/Certificates/Slice0/Obligations.lean ====
section
/-! DEFINITION. The statements for the provers. Each docstring names the rule of spec/ it formalises. -/

open Sys2Proof Sys2Proof.Machine

/-! ### Encoding -/

/-- Words written out from 30_encoding.md R71, R74 and the words of 95_test_vectors.md decode to the instructions they
stand for. A sanity check. -/
def Obligations.SpelledWordsDecode : Prop :=
  decode 0x0000100#27 = .ok (.rd 0x00001#18) ∧ decode 0x00010AB#27 = .ok (.rd 0x00010#18) ∧
    decode 0x4001009#27 = .ok (.wr 0x00010#18 0x09#8) ∧ decode 0x5000F80#27 = .ok (.wr 0x1000F#18 0x80#8) ∧
    decode 0x4000001#27 = .ok .pack ∧ decode 0x4000002#27 = .ok .unpack ∧ decode 0x4000003#27 = .ok .raster ∧
    decode 0x4000004#27 = .ok .init ∧ decode 0x4000005#27 = .ok .render ∧ decode 0x4000006#27 = .ok .commit ∧
    decode 0x0000006#27 = .ok (.rd 0x00000#18) ∧ decode 0x4000100#27 = .ok (.wr 0x00001#18 0x00#8) ∧
    decode 0x4000007#27 = .error (.illegalCommand 0x07#8)

/-- Decoding the word of a well-formed instruction gives it back, with every operand at every value (30_encoding.md R71,
R73, R74). -/
def Obligations.DecodeEncodeRoundTrip : Prop :=
  ∀ i : Instr, i.wellFormed = true → decode (encode i) = .ok i

/-- What decodes is well formed, and encoding it gives the word back, but for the ignored `wdata` field of a read, whose
canonical spelling is zero (30_encoding.md R77). -/
def Obligations.EncodeDecodeCanonicalWord : Prop :=
  ∀ (w : HostWord) (i : Instr), decode w = .ok i →
    i.wellFormed = true ∧ encode i = if weField w then w else w &&& 0x7FFFF00#27

/-- 30_encoding.md R73: decoding is total and proceeds in the three steps of the rule, and the instruction it gives is the
one of the opcode table's matching row with the most mask bits. -/
def Obligations.DecodingTakesTheMostSpecificRow : Prop :=
  ∀ w : HostWord,
    (w.toNat / 2 ^ 26 = 0 → decode w = .ok (.rd (BitVec.ofNat 18 (w.toNat / 2 ^ 8)))) ∧
    (w.toNat / 2 ^ 26 = 1 → w.toNat / 2 ^ 8 % 2 ^ 18 ≠ 0 →
      decode w = .ok (.wr (BitVec.ofNat 18 (w.toNat / 2 ^ 8)) (BitVec.ofNat 8 w.toNat))) ∧
    (w.toNat / 2 ^ 26 = 1 → w.toNat / 2 ^ 8 % 2 ^ 18 = 0 →
      decode w =
        if w.toNat % 2 ^ 8 = 0x01 then .ok .pack
        else if w.toNat % 2 ^ 8 = 0x02 then .ok .unpack
        else if w.toNat % 2 ^ 8 = 0x03 then .ok .raster
        else if w.toNat % 2 ^ 8 = 0x04 then .ok .init
        else if w.toNat % 2 ^ 8 = 0x05 then .ok .render
        else if w.toNat % 2 ^ 8 = 0x06 then .ok .commit
        else .error (.illegalCommand (BitVec.ofNat 8 w.toNat))) ∧
    ∃ r ∈ opcodeRows, r.covers w = true ∧
      (∀ r' ∈ opcodeRows, r'.covers w = true → r' = r ∨ (r'.mask &&& r.mask = r'.mask ∧ r'.mask ≠ r.mask)) ∧
      ∀ i, decode w = .ok i → i.mnemonic = r.mnemonic

/-! ### Steps, runs and reset -/

/-- A step takes the host's next word, and when it decodes to `i` the step is `exec i` on the state with the word taken
(00_scope.md R6, 30_encoding.md R73). With `withFetchWord` that word is the one presented. -/
def Obligations.StepRunsTheDecodedInstruction : Prop :=
  (∀ (s : State) (w : HostWord) (es : List HostEvent) (i : Instr),
    s.cfg.wf = true → s.pending = .request w :: es → decode w = .ok i →
      step s = exec i { s with pending := es }) ∧
  ∀ (s : State) (w : HostWord) (i : Instr),
    s.cfg.wf = true → decode w = .ok i → step (s.withFetchWord 27 w.toNat) = exec i s

/-- What a step does with every other input: with nothing presented nothing changes (00_scope.md R7), an illegal command
is refused with `ILLEGAL_CMD` (30_encoding.md R76), a reset is applied (70_reset_and_hazards.md R170), a reset inside a
command leaves the block as after reset and, after an INIT or a COMMIT, the display device unknown (R171; log 9, the
model's choice), and a configuration outside the bounds of 00_scope.md R10 and R12 is refused
(93_implementation_defined.md U3; log 12, the model's form). -/
def Obligations.StepOnEveryOtherInput : Prop :=
  ∀ s : State,
    (s.cfg.wf = true → s.pending = [] → step s = .next s) ∧
    (∀ w es op, s.cfg.wf = true → s.pending = .request w :: es → decode w = .error (.illegalCommand op) →
      step s = .next (State.refusedWith { s with pending := es } 0x01#8)) ∧
    (∀ es, s.cfg.wf = true → s.pending = .reset :: es →
      step s = .next (State.applyReset { s with pending := es })) ∧
    (∀ w es, s.cfg.wf = true → s.pending = .resetDuring w :: es → ∃ d : Sink,
      step s = .next { State.applyReset { s with pending := es } with sink := d } ∧
      ((decode w = .ok .init ∨ decode w = .ok .commit) →
        ∀ k, d.devByte k = Config.freeByte .dev (s.sink.devEpoch + 1) k) ∧
      (decode w ≠ .ok .init → decode w ≠ .ok .commit → d = s.sink)) ∧
    (s.cfg.wf = false → step s = .refused .badConfiguration)

/-- The step machine is the fold of 20_memory.md R61 over the host's list: as many steps as there are events perform them
in order, whatever the list, and leave none (70_reset_and_hazards.md R184). The list the host holds is the queue `pending`,
the model's form (log 6). -/
def Obligations.RunFoldsTheTransactions : Prop :=
  ∀ (es : List HostEvent) (s : State), s.cfg.wf = true →
    core.run es.length { s with pending := es } = performAll es { s with pending := [] }

/-- 10_state.md R39: the state after reset, for every configuration and, for a reset applied to a running machine, from
every state. That an unspecified byte (93_implementation_defined.md U1) is the free value `Config.freeByte` of its memory,
the reset counter `epoch` and its index is the model's form (log 3); what is kept over a reset is log 8. -/
def Obligations.ResetLeavesTheStatedValues : Prop :=
  (∀ c : Config, (State.resetWith c).cfg = c) ∧
  ∀ s : State, ((∃ c, s = State.resetWith c) ∨ ∃ u : State, s = u.applyReset) →
    (∀ i : Fin 16, s.v[i] = 0#3) ∧ (∀ k : Fin 6, s.f[k] = 0x00#8) ∧ s.ffr = true ∧ s.initd = false ∧ s.err = 0x00#8 ∧
    (∀ k, s.gridByte k = Config.freeByte .grid s.epoch k) ∧ (∀ k, s.fbByte k = Config.freeByte .fb s.epoch k) ∧
    (∀ k, s.dcByte k = Config.freeByte .dc s.epoch k) ∧ s.trace = []

/-- 70_reset_and_hazards.md R172: only reset clears `INITD`, only reset and `WR ERR` clear `ERR`, and a reset between
transactions emits nothing and leaves the display device as it was. -/
def Obligations.OnlyResetClearsInitd : Prop :=
  ∀ (e : HostEvent) (s t : State), performEvent e s = .next t →
    (s.initd = true → t.initd = false → e = .reset ∨ ∃ w, e = .resetDuring w) ∧
    (s.err ≠ 0x00#8 → t.err = 0x00#8 →
      e = .reset ∨ (∃ w, e = .resetDuring w) ∨ ∃ w d, e = .request w ∧ decode w = .ok (.wr 0x00002#18 d)) ∧
    (e = .reset → t.initd = false ∧ t.err = 0x00#8 ∧ t.trace = [] ∧ t.sink = s.sink)

/-- The model's choice (log 9) for 70_reset_and_hazards.md R171: a reset in the middle of a command leaves the block in the
state after reset regardless of the command; the display device is unknown after an INIT or a COMMIT, untouched after any
other. -/
def Obligations.ResetInsideACommand : Prop :=
  ∀ (w : HostWord) (s : State), ∃ d : Sink,
    performEvent (.resetDuring w) s = .next { s.applyReset with sink := d } ∧
    ((decode w = .ok .init ∨ decode w = .ok .commit) →
      ∀ k, d.devByte k = Config.freeByte .dev (s.sink.devEpoch + 1) k) ∧
    (decode w ≠ .ok .init → decode w ≠ .ok .commit → d = s.sink)

/-! ### Host access -/

/-- 40_host_access.md R90: RD's word; it completes at every address; the byte it answers and all it changes. Bytes of
`GRID` and `FB` that nothing has written answer a free value, whatever it is (93_implementation_defined.md U1, log 3). -/
def Obligations.ReadAnswersByAddress : Prop :=
  ∀ (s : State) (addr : HostAddr), s.cfg.wf = true →
    decode (BitVec.ofNat 27 (addr.toNat * 2 ^ 8)) = .ok (.rd addr) ∧
    (Unmapped s.cfg addr.toNat → exec (.rd addr) s = .next (s.refusedWith 0x03#8)) ∧
    (¬ Unmapped s.cfg addr.toNat → ∃ b : Byte, exec (.rd addr) s = .next (s.answered b) ∧
      (addr.toNat = 0x0 → b.toNat = 0) ∧
      (addr.toNat = 0x1 → b.toNat = (if s.err = 0x00#8 then 0 else 4) + 2 * s.ffr.toNat + s.initd.toNat) ∧
      (addr.toNat = 0x2 → b = s.err) ∧
      (addr.toNat = 0x4 → b.toNat = s.cfg.cols) ∧ (addr.toNat = 0x5 → b.toNat = s.cfg.rows) ∧
      (addr.toNat = 0x6 → b.toNat = s.cfg.width) ∧ (addr.toNat = 0x7 → b.toNat = s.cfg.height) ∧
      (addr.toNat = 0x8 → b.toNat = s.cfg.height / 8) ∧ (addr.toNat = 0x9 → b.toNat = s.cfg.chunkMax) ∧
      (∀ i : Fin 16, addr.toNat = 0x10 + i.val → b.toNat = (s.v[i]).toNat) ∧
      (∀ k : Fin 6, addr.toNat = 0x20 + k.val → b = s.f[k]) ∧
      (∀ k, k < s.cfg.gridSize → addr.toNat = 0x10000 + k → b = s.gridByte k) ∧
      (∀ k, k < s.cfg.fbSize → addr.toNat = 0x20000 + k → b = s.fbByte k))

/-- 40_host_access.md R91: WR's word; it completes at every writable address, and what it changes there; it is refused
with `RO_WRITE` at every read-only one and with `BAD_ADDR` at every unmapped one. -/
def Obligations.WriteStoresByAddress : Prop :=
  ∀ (s : State) (addr : HostAddr) (d : Byte), s.cfg.wf = true → addr.toNat ≠ 0x0 →
    decode (BitVec.ofNat 27 (0x4000000 + addr.toNat * 2 ^ 8 + d.toNat)) = .ok (.wr addr d) ∧
    (addr.toNat = 0x2 → exec (.wr addr d) s = .next { s.answered 0x00#8 with err := 0x00#8 }) ∧
    (∀ i : Fin 16, addr.toNat = 0x10 + i.val →
      exec (.wr addr d) s = .next { s.answered 0x00#8 with v := s.v.set i (BitVec.ofNat 3 (d.toNat % 8)) }) ∧
    (∀ k : Fin 6, addr.toNat = 0x20 + k.val →
      exec (.wr addr d) s = .next { s.answered 0x00#8 with f := s.f.set k d }) ∧
    (∀ k, k < s.cfg.gridSize → addr.toNat = 0x10000 + k →
      ∃ m, exec (.wr addr d) s = .next { s.answered 0x00#8 with grid := m } ∧
        ∀ j, State.gridByte { s with grid := m } j = if j = k then d else s.gridByte j) ∧
    (ReadOnly s.cfg addr.toNat → exec (.wr addr d) s = .next (s.refusedWith 0x04#8)) ∧
    (Unmapped s.cfg addr.toNat → exec (.wr addr d) s = .next (s.refusedWith 0x03#8))

/-- The model's choice (log 14): the ill-formed term `WR CMD` is refused by name, and no word decodes to it
(30_encoding.md R73). -/
def Obligations.WriteToCmdIsNoInstruction : Prop :=
  (∀ (s : State) (d : Byte), exec (.wr 0x00000#18 d) s = .refused .notAWriteInstruction) ∧
  ∀ (w : HostWord) (d : Byte), decode w ≠ .ok (.wr 0x00000#18 d)

/-- 20_memory.md R60: a repeated RD answers the same byte, and a repeated WR of the same byte changes nothing more than the
list of responses. -/
def Obligations.RepeatedAccessIsIdempotent : Prop :=
  (∀ (s t u : State) (addr : HostAddr), ¬ Unmapped s.cfg addr.toNat →
    exec (.rd addr) s = .next t → exec (.rd addr) t = .next u →
      ∃ r, t.responses = s.responses ++ [r] ∧ u.responses = t.responses ++ [r]) ∧
  ∀ (s t u : State) (addr : HostAddr) (d : Byte),
    exec (.wr addr d) s = .next t → exec (.wr addr d) t = .next u → u = { t with responses := u.responses }

/-! ### Errors -/

/-- 30_encoding.md R76, 60_exceptions.md R153: a write to `CMD` whose data is none of the six opcodes runs no command; it
changes the latch and answers `err = 1`. -/
def Obligations.IllegalCommandsOnlyRaise : Prop :=
  ∀ (s : State) (op : Byte),
    ((op.toNat = 0x00 ∨ 0x07 ≤ op.toNat) →
      performWord (BitVec.ofNat 27 (2 ^ 26 + op.toNat)) s = .next (s.refusedWith 0x01#8)) ∧
    (0x01 ≤ op.toNat → op.toNat ≤ 0x06 →
      ∃ i, decode (BitVec.ofNat 27 (2 ^ 26 + op.toNat)) = .ok i ∧
        performWord (BitVec.ofNat 27 (2 ^ 26 + op.toNat)) s = exec i s)

/-- 60_exceptions.md R154: before the first INIT, RENDER and COMMIT are refused with `NOT_INIT`, and everything else runs
as ever; INIT itself when the sink takes its tokens (70_reset_and_hazards.md R181; log 11, the model's form of a hang). -/
def Obligations.DisplayCommandsNeedInit : Prop :=
  ∀ s : State, s.initd = false →
    exec .render s = .next (s.refusedWith 0x02#8) ∧ exec .commit s = .next (s.refusedWith 0x02#8) ∧
    (∀ i ∈ [Instr.pack, .unpack, .raster], ∃ t, exec i s = .next t ∧
      t.err = s.err ∧ t.responses = s.responses ++ [{ rdata := 0x00#8, err := false }]) ∧
    (s.sink.accepts s.cfg.initSeq.length = true → ∃ t, exec .init s = .next t ∧
      t.initd = true ∧ t.err = s.err ∧ t.responses = s.responses ++ [{ rdata := 0x00#8, err := false }]) ∧
    (∀ addr, ¬ Unmapped s.cfg addr.toNat → ∃ b, exec (.rd addr) s = .next (s.answered b)) ∧
    (∀ addr d, addr.toNat ≠ 0 → ¬ Unmapped s.cfg addr.toNat → ¬ ReadOnly s.cfg addr.toNat →
      ∃ t, exec (.wr addr d) s = .next t ∧ t.responses = s.responses ++ [{ rdata := 0x00#8, err := false }])

/-- 60_exceptions.md R151, R152: a transaction raises an error exactly under the conditions of the table, at most one at a
time; the response carries `err = 1` exactly then; the first code since the last clear is latched and nothing else changes. -/
def Obligations.ErrorsExactlyAsListed : Prop :=
  (ErrorCode.illegalCmd.code = 0x01#8 ∧ ErrorCode.notInit.code = 0x02#8 ∧ ErrorCode.badAddr.code = 0x03#8 ∧
    ErrorCode.roWrite.code = 0x04#8) ∧
  ∀ (w : HostWord) (s : State),
    (∀ e : ErrorCode, e.condition w s → performWord w s = .next (s.refusedWith e.code)) ∧
    (∀ e e' : ErrorCode, e.condition w s → e'.condition w s → e = e') ∧
    ∀ t, performWord w s = .next t →
      ∃ r, t.responses = s.responses ++ [r] ∧ (r.err = true ↔ ∃ e : ErrorCode, e.condition w s)

/-- 60_exceptions.md R158: but for the reads that show it, no operation depends on the error latch. -/
def Obligations.NothingDependsOnTheErrorLatch : Prop :=
  ∀ (i : Instr) (s : State) (code : Byte), i ≠ .rd 0x00001#18 → i ≠ .rd 0x00002#18 →
    (∀ t, exec i s = .next t → ∃ code', exec i { s with err := code } = .next { t with err := code' }) ∧
    (∀ r, exec i s = .fault r → exec i { s with err := code } = .fault r) ∧
    (∀ r, exec i s = .refused r → exec i { s with err := code } = .refused r)

/-! ### Band Codec -/

/-- 41_band_codec.md R100, of naturals of any size: the bytes of `pack` are those of the 48-bit number, and bit `j` of
sample `i` is stream bit `3i + j`, which is bit `n mod 8` of byte `n div 8`. -/
def Obligations.PackIsTheBitstream : Prop :=
  ∀ v : Nat → Nat,
    (∑ i ∈ Finset.range 16, v i % 8 * 8 ^ i) < 2 ^ 48 ∧
    (∀ k, k < 6 → (packByte v k).toNat = (∑ i ∈ Finset.range 16, v i % 8 * 8 ^ i) / 256 ^ k % 256) ∧
    ∀ i j, i < 16 → j < 3 → (packByte v ((3 * i + j) / 8)).getLsbD ((3 * i + j) % 8) = (v i).testBit j

/-- 41_band_codec.md R101: PACK's word; it completes in every state and writes the six frame bytes from the samples,
nothing else. -/
def Obligations.PackWritesTheFrame : Prop :=
  decode 0x4000001#27 = .ok .pack ∧ ∀ s : State, ∃ bs : Vector Byte 6,
    exec .pack s = .next { s.answered 0x00#8 with f := bs } ∧
    ∀ k : Fin 6, (bs[k]).toNat = (∑ i : Fin 16, (s.v[i]).toNat * 8 ^ i.val) / 256 ^ k.val % 256

/-- 41_band_codec.md R102, the layout of the six bytes: each is the concatenation of the fields and field parts listed,
the more significant first, written as a number. -/
def Obligations.FrameByteLayout : Prop :=
  ∀ v : Nat → Nat, (∀ i, v i ≤ 7) →
    (packByte v 0).toNat = v 2 % 4 * 2 ^ 6 + v 1 * 2 ^ 3 + v 0 ∧
    (packByte v 1).toNat = v 5 % 2 * 2 ^ 7 + v 4 * 2 ^ 4 + v 3 * 2 + v 2 / 4 ∧
    (packByte v 2).toNat = v 7 * 2 ^ 5 + v 6 * 2 ^ 2 + v 5 / 2 ∧
    (packByte v 3).toNat = v 10 % 4 * 2 ^ 6 + v 9 * 2 ^ 3 + v 8 ∧
    (packByte v 4).toNat = v 13 % 2 * 2 ^ 7 + v 12 * 2 ^ 4 + v 11 * 2 + v 10 / 4 ∧
    (packByte v 5).toNat = v 15 * 2 ^ 5 + v 14 * 2 ^ 2 + v 13 / 2

/-- 41_band_codec.md R103: both forms of `unpack`, the number's and the one per sample from the current byte and the low
bits of the next. -/
def Obligations.UnpackReadsTheFields : Prop :=
  ∀ (b : Nat → Byte) (i : Nat), i < 16 →
    (unpackSample b i).toNat = (∑ k ∈ Finset.range 6, (b k).toNat * 256 ^ k) / 8 ^ i % 8 ∧
    (3 * i % 8 ≤ 5 → (unpackSample b i).toNat = (b (3 * i / 8)).toNat / 2 ^ (3 * i % 8) % 8) ∧
    (3 * i % 8 = 6 →
      (unpackSample b i).toNat = (b (3 * i / 8)).toNat / 2 ^ 6 + (b (3 * i / 8 + 1)).toNat % 2 * 2 ^ 2) ∧
    (3 * i % 8 = 7 →
      (unpackSample b i).toNat = (b (3 * i / 8)).toNat / 2 ^ 7 + (b (3 * i / 8 + 1)).toNat % 4 * 2) ∧
    (6 ≤ 3 * i % 8 → 3 * i / 8 + 1 ≤ 5)

/-- 41_band_codec.md R104: UNPACK's word; it completes in every state and writes the sixteen samples from the frame,
nothing else. -/
def Obligations.UnpackWritesTheSamples : Prop :=
  decode 0x4000002#27 = .ok .unpack ∧ ∀ s : State, ∃ xs : Vector Sample 16,
    exec .unpack s = .next { s.answered 0x00#8 with v := xs } ∧
    ∀ i : Fin 16, (xs[i]).toNat = (∑ k : Fin 6, (s.f[k]).toNat * 256 ^ k.val) / 8 ^ i.val % 8

/-- 41_band_codec.md R105: `unpack(pack(v)) = v` on samples in `[0,7]`, masking is all that happens to larger ones, and
PACK then UNPACK leaves `V` as it was. -/
def Obligations.UnpackInvertsPack : Prop :=
  (∀ (v : Nat → Nat) (i : Nat), i < 16 → (unpackSample (packByte v) i).toNat = v i % 8) ∧
  (∀ (v : Nat → Nat) (i : Nat), i < 16 → v i ≤ 7 → (unpackSample (packByte v) i).toNat = v i) ∧
  (∀ v v' : Nat → Nat, (∀ i, i < 16 → v' i = v i % 8) → ∀ k, k < 6 → packByte v k = packByte v' k) ∧
  ∀ s : State, ∃ t u, exec .pack s = .next t ∧ exec .unpack t = .next u ∧ u.v = s.v

/-- 41_band_codec.md R106: `pack(unpack(b)) = b` for every six bytes, so every frame is the frame of exactly one vector
over `[0,7]`, and UNPACK then PACK leaves `F` as it was. -/
def Obligations.PackInvertsUnpack : Prop :=
  (∀ (b : Nat → Byte) (k : Nat), k < 6 → packByte (fun i => (unpackSample b i).toNat) k = b k) ∧
  (∀ b : Vector Byte 6, ∃! v : Vector Sample 16,
    ∀ k : Fin 6, packByte (fun i => (v.getD i 0#3).toNat) k.val = b[k]) ∧
  ∀ s : State, ∃ t u, exec .unpack s = .next t ∧ exec .pack t = .next u ∧ u.f = s.f

/-- 41_band_codec.md R107: a sample depends only on the one or two bytes its field meets, a byte only on the samples whose
fields meet it. -/
def Obligations.CodecLanesAreIndependent : Prop :=
  (∀ (b b' : Nat → Byte) (i : Nat), i < 16 → b (3 * i / 8) = b' (3 * i / 8) →
    b ((3 * i + 2) / 8) = b' ((3 * i + 2) / 8) → unpackSample b i = unpackSample b' i) ∧
  ∀ (v v' : Nat → Nat) (k : Nat), k < 6 →
    (∀ i, i < 16 → 3 * i < 8 * k + 8 → 8 * k ≤ 3 * i + 2 → v i % 8 = v' i % 8) → packByte v k = packByte v' k

/-! ### Rasterizer -/

/-- 42_rasterizer.md R110: the loop of the rule and its closed form give the same grid. R110 takes samples in `[0,7]`; that
larger ones are drawn unmasked is the model's choice (log 18). -/
def Obligations.RasterLoopIsTheClosedForm : Prop :=
  ∀ (c : Config) (sample : Nat → Nat),
    (rasterLoop c sample).length = c.gridSize ∧
    (∀ x y, x < c.cols → y < c.rows →
      (rasterLoop c sample)[y * c.cols + x]? =
        some (if x < 16 ∧ c.rows - min c.rows (sample x) ≤ y then 0x01#8 else 0x00#8)) ∧
    rasterLoop c sample = bytesOf c.gridSize (rasterByte c sample)

/-- 42_rasterizer.md R111: RASTER's word; it completes in every state and draws the bars into every byte of `GRID`,
whatever it held, and nothing else changes. -/
def Obligations.RasterDrawsTheBars : Prop :=
  decode 0x4000003#27 = .ok .raster ∧ ∀ s : State, ∃ m : Memory,
    exec .raster s = .next { s.answered 0x00#8 with grid := m } ∧
    (∀ x y, x < s.cfg.cols → y < s.cfg.rows →
      State.gridByte { s with grid := m } (y * s.cfg.cols + x) =
        if h : x < 16 then (if s.cfg.rows - min s.cfg.rows (s.v[x]).toNat ≤ y then 0x01#8 else 0x00#8) else 0x00#8) ∧
    ∀ k, s.cfg.gridSize ≤ k → State.gridByte { s with grid := m } k = s.gridByte k

/-- 42_rasterizer.md R112: the number of set cells of a column is `min(ROWS, s[x])`, those of a smaller sample are among
those of a larger one, and none is set beyond column 15. For samples above 7 this is the model's choice (log 18). -/
def Obligations.BarHeights : Prop :=
  ∀ (c : Config) (x : Nat),
    (∀ sample : Nat → Nat, x < 16 →
      ((List.range c.rows).filter fun y => rasterCell c sample x y != 0x00#8).length = min c.rows (sample x)) ∧
    (∀ sample sample' : Nat → Nat, sample x ≤ sample' x → ∀ y,
      rasterCell c sample x y ≠ 0x00#8 → rasterCell c sample' x y ≠ 0x00#8) ∧
    (16 ≤ x → ∀ sample y, rasterCell c sample x y = 0x00#8)

/-! ### INIT and RENDER -/

/-- 43_display_init_and_pager.md R120, R121: INIT's word; when the sink takes its tokens, INIT completes in every state: it emits one
command burst per byte of `INIT_SEQ`, in order, and nothing else, zeroes every byte of `FB` and `DC`, sets `FFR` and
`INITD`, and changes nothing else. The device's memory is as before (60_exceptions.md R162); that the sink takes only `room`
tokens, of which these are taken off, is the model's form (log 11). -/
def Obligations.InitStartsTheDisplay : Prop :=
  decode 0x4000004#27 = .ok .init ∧ ∀ s : State, s.sink.accepts s.cfg.initSeq.length = true → ∃ (fb dc : Memory) (d : Sink),
    exec .init s =
      .next { s.answered 0x00#8 with
        fb := fb
        dc := dc
        ffr := true
        initd := true
        trace := s.trace ++ s.cfg.initSeq.map Burst.command
        sink := d } ∧
    (∀ k, State.fbByte { s with fb := fb } k = if k < s.cfg.fbSize then 0x00#8 else s.fbByte k) ∧
    (∀ k, State.dcByte { s with dc := dc } k = if k < s.cfg.fbSize then 0x00#8 else s.dcByte k) ∧
    (∀ k, d.devByte k = s.sink.devByte k) ∧
    d.room = s.sink.room.map (· - s.cfg.initSeq.length)

/-- 20_memory.md R66, 70_reset_and_hazards.md R181: an INIT or a COMMIT whose tokens the sink will not all take never
finishes; here it stops with a fault of its own (log 11, the model's form of a hang). -/
def Obligations.StalledSinkHangs : Prop :=
  ∀ s : State,
    (s.sink.accepts s.cfg.initSeq.length = false → exec .init s = .fault .sinkStalled) ∧
    (s.initd = true → s.sink.accepts (tokenCount ((s.sentPages.flatMap s.pageEmissions).flatMap
      (Emission.bursts s.cfg))) = false → exec .commit s = .fault .sinkStalled) ∧
    ∀ i r, exec i s = .fault r → (i = .init ∨ i = .commit) ∧ ∃ room, s.sink.room = some room

/-- 43_display_init_and_pager.md R124: the loops of the rule and its closed form give the same framebuffer: device pixel
`(px, py)` is lit exactly when its cell exists and is set. -/
def Obligations.PageLoopIsTheClosedForm : Prop :=
  ∀ (c : Config) (g : Nat → Byte), c.wf = true →
    (pageLoop c g).length = c.fbSize ∧
    (∀ px py, px < c.width → py < c.height → ∃ byte,
      (pageLoop c g)[py / 8 * c.width + px]? = some byte ∧
        (byte.getLsbD (py % 8) = true ↔ 1 ≤ c.bw ∧ 1 ≤ c.bh ∧ px / c.bw < c.cols ∧ py / c.bh < c.rows ∧
          g (py / c.bh * c.cols + px / c.bw) ≠ 0x00#8)) ∧
    pageLoop c g = bytesOf c.fbSize (pageByte c g)

/-- 43_display_init_and_pager.md R125: RENDER's word; once initialised it completes in every state: every byte of `FB`
becomes that of `page(GRID)`, nothing is emitted, nothing else of the block changes; before, it is refused. What becomes of
the model's own mark `programFault` is left open here. -/
def Obligations.RenderDrawsTheGrid : Prop :=
  decode 0x4000005#27 = .ok .render ∧ ∀ s : State, s.cfg.wf = true →
    (s.initd = false → exec .render s = .next (s.refusedWith 0x02#8)) ∧
    (s.initd = true → ∃ (m : Memory) (mark : Bool),
      exec .render s = .next { s.answered 0x00#8 with fb := m, programFault := mark } ∧
      (∀ px py, px < s.cfg.width → py < s.cfg.height →
        ((State.fbByte { s with fb := m } (py / 8 * s.cfg.width + px)).getLsbD (py % 8) = true ↔
          1 ≤ s.cfg.bw ∧ 1 ≤ s.cfg.bh ∧ px / s.cfg.bw < s.cfg.cols ∧ py / s.cfg.bh < s.cfg.rows ∧
            s.gridByte (py / s.cfg.bh * s.cfg.cols + px / s.cfg.bw) ≠ 0x00#8)) ∧
      ∀ k, s.cfg.fbSize ≤ k → State.fbByte { s with fb := m } k = s.fbByte k)

/-- The model's choice (log 4) for 70_reset_and_hazards.md R176: a RENDER that reads a `GRID` byte nothing has written
since reset marks the run as gone wrong, no other RENDER does, and nothing takes the mark away. -/
def Obligations.RenderMarksUnwrittenCells : Prop :=
  (∀ s t : State, s.initd = true → exec .render s = .next t →
    (t.programFault = true ↔ s.programFault = true ∨ ∃ k, k < s.cfg.gridSize ∧ Memory.read s.grid k = none)) ∧
  ∀ (e : HostEvent) (s t : State), performEvent e s = .next t → s.programFault = true → t.programFault = true

/-- 43_display_init_and_pager.md R126: `FB` after RENDER is a function of `GRID` alone, so a second RENDER of the same
`GRID` gives the same `FB`, whatever `FB` held. -/
def Obligations.RenderDependsOnGridAlone : Prop :=
  ∀ s t s' t' : State, s.initd = true → s'.initd = true → s.cfg = s'.cfg →
    (∀ k, k < s.cfg.gridSize → s.gridByte k = s'.gridByte k) →
    exec .render s = .next t → exec .render s' = .next t' → ∀ k, k < s.cfg.fbSize → t.fbByte k = t'.fbByte k

/-- 43_display_init_and_pager.md R129: when the scale is at least one pixel per cell, a cell is set exactly when the top
left pixel of its block is lit. -/
def Obligations.CellsCanBeReadOffThePage : Prop :=
  ∀ (c : Config) (g : Nat → Byte) (cx cy : Nat), c.wf = true → 1 ≤ c.bw → 1 ≤ c.bh → cx < c.cols → cy < c.rows →
    ((pageByte c g (cy * c.bh / 8 * c.width + cx * c.bw)).getLsbD (cy * c.bh % 8) = true ↔
      g (cy * c.cols + cx) ≠ 0x00#8)

/-- 43_display_init_and_pager.md R127, R128: blocks never leave the device, a scale below one pixel draws nothing, and the
margins that the division leaves stay dark. -/
def Obligations.MarginsStayDark : Prop :=
  ∀ (c : Config) (g : Nat → Byte), c.wf = true →
    c.cols * c.bw ≤ c.width ∧ c.rows * c.bh ≤ c.height ∧
    (c.bw = 0 ∨ c.bh = 0 → ∀ k, k < c.fbSize → pageByte c g k = 0x00#8) ∧
    (∀ px py, px < c.width → py < c.height → c.cols * c.bw ≤ px ∨ c.rows * c.bh ≤ py →
      (pageByte c g (py / 8 * c.width + px)).getLsbD (py % 8) = false)

/-! ### COMMIT -/

/-- 44_dirty_detector.md R135: COMMIT's word; it is the loop of the rule as it is written, page by page on the state the pages before
left, when the sink takes the tokens that loop emits; before the first INIT it is refused. -/
def Obligations.CommitIsTheWrittenLoop : Prop :=
  decode 0x4000006#27 = .ok .commit ∧ ∀ s : State, s.cfg.wf = true →
    (s.initd = false → exec .commit s = .next (s.refusedWith 0x02#8)) ∧
    (s.initd = true → s.sink.accepts (tokenCount (s.commitLoop.trace.drop s.trace.length)) = true →
      exec .commit s = .next (s.commitLoop.answered 0x00#8))

/-- 44_dirty_detector.md R136: a page is sent exactly when it is forced or some byte of it differs from `DC`; nothing is
emitted and `DC` is not written for any other. What is emitted for a sent page is the page select and then its bytes in
chunks (R137), `DC` becomes `FB` there (R138), `FFR` is cleared and nothing else changes. -/
def Obligations.CommitSendsForcedAndDirtyPages : Prop :=
  ∀ s : State, s.cfg.wf = true → s.initd = true →
    ∃ sent : List Nat, sent.Pairwise (· < ·) ∧
      (∀ p, p ∈ sent ↔ p < s.cfg.pages ∧
        (s.ffr = true ∨ ∃ x, x < s.cfg.width ∧ s.fbByte (p * s.cfg.width + x) ≠ s.dcByte (p * s.cfg.width + x))) ∧
      ∀ bursts : List Burst,
        bursts = (sent.flatMap fun p =>
          (s.cfg.pageSelect p).map Burst.command ++
            (List.range ((s.cfg.width + s.cfg.chunkMax - 1) / s.cfg.chunkMax)).map fun j =>
              Burst.data (bytesOf (min s.cfg.chunkMax (s.cfg.width - j * s.cfg.chunkMax)) fun x =>
                s.fbByte (p * s.cfg.width + j * s.cfg.chunkMax + x))) →
        s.sink.accepts (tokenCount bursts) = true →
        ∃ (dc : Memory) (d : Sink),
          exec .commit s =
            .next { s.answered 0x00#8 with dc := dc, ffr := false, trace := s.trace ++ bursts, sink := d } ∧
          ∀ k, State.dcByte { s with dc := dc } k = if k / s.cfg.width ∈ sent then s.fbByte k else s.dcByte k

/-- 44_dirty_detector.md R139: after a COMMIT that passes the `INITD` test, `DC = FB` byte for byte and `FFR = 0`; `FB` is
as before. -/
def Obligations.CommitMakesTheCacheEqual : Prop :=
  ∀ s t : State, s.cfg.wf = true → s.initd = true → exec .commit s = .next t →
    t.ffr = false ∧ ∀ k, k < s.cfg.fbSize → t.dcByte k = t.fbByte k ∧ t.fbByte k = s.fbByte k

/-- 44_dirty_detector.md R137, R142: the bursts of a COMMIT hold `WIDTH` data bytes per sent page, and there is one burst
per command byte and `ceil(WIDTH / CHUNK_MAX)` data bursts per sent page; with `FFR = 0` the sent pages are those that
differ. -/
def Obligations.CommitTrafficIsBounded : Prop :=
  ∀ (s t : State) (n : Nat), s.cfg.wf = true → s.initd = true →
    (∀ p, p < s.cfg.pages → (s.cfg.pageSelect p).length = n) → exec .commit s = .next t →
    ∃ new : List Burst, t.trace = s.trace ++ new ∧
      new.length = s.sentPages.length * (n + (s.cfg.width + s.cfg.chunkMax - 1) / s.cfg.chunkMax) ∧
      tokenCount new = s.sentPages.length * (n + s.cfg.width) ∧
      (s.ffr = false → ∀ p, p ∈ s.sentPages ↔
        p < s.cfg.pages ∧ ∃ k, k / s.cfg.width = p ∧ s.fbByte k ≠ s.dcByte k)

/-- 44_dirty_detector.md R140: the second `SHOW` of the same grid emits nothing, and it completes. -/
def Obligations.SecondShowEmitsNothing : Prop :=
  ∀ s t : State, s.cfg.wf = true → s.initd = true → execAll Pseudo.SHOW.expand s = .next t →
    ∃ u, execAll Pseudo.SHOW.expand t = .next u ∧ u.trace = t.trace ∧ ∀ k, k < s.cfg.fbSize → u.fbByte k = t.fbByte k

/-- 44_dirty_detector.md R141: after an INIT, whatever runs in between that is no COMMIT, the first COMMIT sends every
page, in order, whatever `FB` holds. -/
def Obligations.FirstCommitAfterInitSendsEveryPage : Prop :=
  ∀ (s a b t : State) (is : List Instr), s.cfg.wf = true → exec .init s = .next a → .commit ∉ is →
    execAll is a = .next b → exec .commit b = .next t →
    b.sentPages = List.range s.cfg.pages ∧
      t.trace = b.trace ++ ((List.range s.cfg.pages).flatMap b.pageEmissions).flatMap (Emission.bursts s.cfg)

/-- 20_memory.md R65: only INIT and COMMIT emit, a command burst holds exactly one byte (by its type) and a data burst
between 1 and `CHUNK_MAX` bytes. -/
def Obligations.BurstsAreBounded : Prop :=
  ∀ (i : Instr) (s t : State), s.cfg.wf = true → exec i s = .next t →
    ∃ new : List Burst, t.trace = s.trace ++ new ∧ (new ≠ [] → i = .init ∨ i = .commit) ∧
      ∀ bytes, Burst.data bytes ∈ new → 1 ≤ bytes.length ∧ bytes.length ≤ s.cfg.chunkMax

/-- 20_memory.md R64: all tokens of a burst have the same `dc`, a burst holds its bytes in order, and exactly its final
token carries the `last` mark. -/
def Obligations.BurstTokensAreMarked : Prop :=
  ∀ b : Burst,
    (∀ x ∈ b.tokens, ∀ y ∈ b.tokens, x.dc = y.dc) ∧
    (∀ (j : Nat) (x : Token), b.tokens[j]? = some x → (x.last = true ↔ j + 1 = b.tokens.length)) ∧
    (∀ bytes, b = .data bytes → b.tokens.map Token.byte = bytes ∧ ∀ x ∈ b.tokens, x.dc = true) ∧
    ∀ byte, b = .command byte → b.tokens = [{ dc := false, byte := byte, last := true }]

/-! ### The whole machine -/

/-- 10_state.md R37, the access matrix: for every instruction, every element it does not write is unchanged, each byte of
each memory included. -/
def Obligations.AccessMatrix : Prop :=
  ∀ (i : Instr) (s t : State), exec i s = .next t →
    ((i ≠ .unpack ∧ ∀ a d, i ≠ .wr a d) → t.v = s.v) ∧
    ((i ≠ .pack ∧ ∀ a d, i ≠ .wr a d) → t.f = s.f) ∧
    ((i ≠ .raster ∧ ∀ a d, i ≠ .wr a d) → ∀ k, t.gridByte k = s.gridByte k) ∧
    ((i ≠ .init ∧ i ≠ .render) → ∀ k, t.fbByte k = s.fbByte k) ∧
    ((i ≠ .init ∧ i ≠ .commit) → (∀ k, t.dcByte k = s.dcByte k) ∧ t.ffr = s.ffr ∧ t.trace = s.trace ∧ t.sink = s.sink) ∧
    (i ≠ .init → t.initd = s.initd) ∧
    (t.err = s.err ∨ (∃ d, i = .wr 0x00002#18 d ∧ t.err = 0x00#8) ∨
      ∃ e : ErrorCode, t = s.refusedWith e.code) ∧
    t.cfg = s.cfg ∧ t.pending = s.pending ∧ t.epoch = s.epoch ∧ (i ≠ .render → t.programFault = s.programFault) ∧
    (∀ a d, i = .wr a d →
      (t.v = s.v ∨ ∃ j : Fin 16, a.toNat = 0x10 + j.val ∧ t.v = s.v.set j (d.extractLsb' 0 3)) ∧
      (t.f = s.f ∨ ∃ j : Fin 6, a.toNat = 0x20 + j.val ∧ t.f = s.f.set j d) ∧
      ∀ k, a.toNat ≠ 0x10000 + k → t.gridByte k = s.gridByte k)

/-- 10_state.md R34: the DirtyCache is hidden. But for COMMIT, no instruction's answer or output depends on it: two states
that differ in `DC` alone are taken to states that differ in `DC` alone. -/
def Obligations.CacheIsHidden : Prop :=
  ∀ (i : Instr) (s : State) (m : Memory), i ≠ .commit →
    (∀ t, exec i s = .next t → ∃ m', exec i { s with dc := m } = .next { t with dc := m' }) ∧
    (∀ r, exec i s = .fault r → exec i { s with dc := m } = .fault r) ∧
    (∀ r, exec i s = .refused r → exec i { s with dc := m } = .refused r)

/-- 10_state.md R31: in every state that meets the invariant, RD STATUS answers one of six values. -/
def Obligations.StatusValues : Prop :=
  ∀ s : State, s.Inv → ∃ b : Byte, exec (.rd 0x00001#18) s = .next (s.answered b) ∧
    b ∈ [0x01#8, 0x02#8, 0x03#8, 0x05#8, 0x06#8, 0x07#8]

/-- 00_scope.md R11: the derived constants and their ranges under R10, with the cases in which a cell has no pixel. -/
def Obligations.DerivedConstants : Prop :=
  ∀ c : Config, c.wf = true →
    c.pages = c.height / 8 ∧ c.bw = c.width / c.cols ∧ c.bh = c.height / c.rows ∧ c.gridSize = c.cols * c.rows ∧
    c.fbSize = c.width * c.pages ∧ 1 ≤ c.pages ∧ c.pages ≤ 31 ∧ c.bw ≤ 255 ∧ c.bh ≤ 248 ∧ c.gridSize ≤ 65025 ∧
    c.fbSize ≤ 7905 ∧ (c.bw = 0 ↔ c.width < c.cols) ∧ (c.bh = 0 ↔ c.height < c.rows)

/-- The invariant of the machine holds right after reset, whatever the configuration, and after a reset of a running
machine whose display memory is in canonical form. -/
def Obligations.ResetMeetsTheInvariants : Prop :=
  (∀ c : Config, (State.resetWith c).Inv ∧ (State.resetWith c).DisplayConsistent) ∧
  ∀ s : State, Memory.wf s.sink.dev = true → s.applyReset.Inv ∧ s.applyReset.DisplayConsistent

/-- Every step keeps the invariant: canonical memories inside their sizes, a legal error code (10_state.md R32),
`INITD = 0` implies `FFR = 1` (R31), and written `FB` and `DC` once initialised; and it keeps the configuration
(00_scope.md R9). -/
def Obligations.StepKeepsTheInvariant : Prop :=
  ∀ s t : State, s.Inv → step s = .next t → t.Inv ∧ t.cfg = s.cfg

/-- 60_exceptions.md R163: every step keeps the display consistent: once the first COMMIT after an INIT has run, the
display shows what the cache holds, whatever else runs. -/
def Obligations.StepKeepsTheDisplayConsistent : Prop :=
  ∀ s t : State, s.DisplayConsistent → step s = .next t → t.DisplayConsistent

/-- 60_exceptions.md R163: after a COMMIT that passes the `INITD` test, `DEV = DC = FB`. -/
def Obligations.CommitShowsTheFramebuffer : Prop :=
  ∀ s t : State, s.cfg.wf = true → s.DisplayConsistent → s.initd = true → exec .commit s = .next t →
    ∀ k, k < s.cfg.fbSize → t.sink.devByte k = t.fbByte k ∧ t.dcByte k = t.fbByte k

/-- 30_encoding.md R79: `LDV` and `LDF` load the whole object, whatever it was, and nothing else; `RDF` then reads it out. -/
def Obligations.LoadsWriteWholeObjects : Prop :=
  ∀ s : State,
    (∀ samples : Vector Byte 16, ∃ t, execAll (Pseudo.LDV samples).expand s = .next t ∧
      (∀ i : Fin 16, t.v[i] = (samples[i]).extractLsb' 0 3) ∧ t = { s with v := t.v, responses := t.responses }) ∧
    (∀ bytes : Vector Byte 6, ∃ t, execAll (Pseudo.LDF bytes).expand s = .next t ∧
      t.f = bytes ∧ t = { s with f := t.f, responses := t.responses }) ∧
    ∃ t, execAll Pseudo.RDF.expand s = .next t ∧
      t.responses = s.responses ++ s.f.toList.map fun b => { rdata := b, err := false }

/-- The data flow of 00_scope.md R3 and 30_encoding.md R79: from every initialised state whose sink takes every token
(log 11), one `TICK` completes without marking the run (the model's mark of a RENDER over unwritten cells, log 4; RASTER has
written them all), and then the framebuffer is the page of the raster of the unpacked frame, the cache equals it, and the
samples are the frame's. -/
def Obligations.TickShowsTheFrame : Prop :=
  ∀ s : State, s.cfg.wf = true → s.initd = true → s.sink.room = none →
    ∃ t, execAll Pseudo.TICK.expand s = .next t ∧
      (∀ i : Fin 16, t.v[i] = unpackSample s.frameByte i.val) ∧ t.f = s.f ∧ t.ffr = false ∧
      t.programFault = s.programFault ∧
      ∀ k, k < s.cfg.fbSize →
        t.fbByte k =
          pageByte s.cfg (rasterByte s.cfg fun i => if i < 16 then (unpackSample s.frameByte i).toNat else 0) k ∧
        t.dcByte k = t.fbByte k
end

