-- ==== Sys2Proof/Laws/Decode.lean ====
section
/-! SUPPORT. The fields of a host word as numbers, and the fields of a word put together from them. -/

namespace Sys2Proof

theorem weField_eq (w : HostWord) : weField w = decide (2 ^ 26 ≤ w.toNat) := by
  have hw := w.isLt
  have h : w.toNat / 2 ^ 26 = if 2 ^ 26 ≤ w.toNat then 1 else 0 := by split <;> omega
  simp only [weField, BitVec.getLsbD, Nat.testBit, Nat.shiftRight_eq_div_pow, h]
  split <;> simp <;> omega

theorem toNat_addrField (w : HostWord) : (addrField w).toNat = w.toNat / 2 ^ 8 % 2 ^ 18 := by
  simp [addrField, BitVec.extractLsb'_toNat, Nat.shiftRight_eq_div_pow]

theorem toNat_wdataField (w : HostWord) : (wdataField w).toNat = w.toNat % 2 ^ 8 := by
  simp [wdataField, BitVec.extractLsb'_toNat]

theorem toNat_wordOf (we : Bool) (addr : HostAddr) (wdata : Byte) :
    (wordOf we addr wdata).toNat = we.toNat * 2 ^ 26 + addr.toNat * 2 ^ 8 + wdata.toNat := by
  have ha := addr.isLt
  have hd := wdata.isLt
  have hb : we.toNat ≤ 1 := Bool.toNat_le we
  have h1 : addr.toNat <<< 8 ||| wdata.toNat = addr.toNat * 2 ^ 8 + wdata.toNat := by
    rw [Nat.shiftLeft_eq, Nat.mul_comm, Nat.two_pow_add_eq_or_of_lt hd]
  have h2 : we.toNat <<< 26 ||| (addr.toNat * 2 ^ 8 + wdata.toNat) =
      we.toNat * 2 ^ 26 + (addr.toNat * 2 ^ 8 + wdata.toNat) := by
    rw [Nat.shiftLeft_eq, Nat.mul_comm we.toNat, Nat.two_pow_add_eq_or_of_lt (by omega)]
  rw [wordOf, BitVec.toNat_ofNat, Nat.or_assoc, h1, h2]
  omega

@[simp] theorem weField_wordOf (we : Bool) (addr : HostAddr) (wdata : Byte) : weField (wordOf we addr wdata) = we := by
  have ha := addr.isLt
  have hd := wdata.isLt
  rw [weField_eq, toNat_wordOf]
  cases we
  · simp only [Bool.toNat_false, decide_eq_false_iff_not]; omega
  · simp only [Bool.toNat_true, decide_eq_true_eq]; omega

@[simp] theorem addrField_wordOf (we : Bool) (addr : HostAddr) (wdata : Byte) :
    addrField (wordOf we addr wdata) = addr := by
  apply BitVec.eq_of_toNat_eq
  have ha := addr.isLt
  have hd := wdata.isLt
  have hb : we.toNat ≤ 1 := Bool.toNat_le we
  rw [toNat_addrField, toNat_wordOf]
  omega

@[simp] theorem wdataField_wordOf (we : Bool) (addr : HostAddr) (wdata : Byte) :
    wdataField (wordOf we addr wdata) = wdata := by
  apply BitVec.eq_of_toNat_eq
  have hd := wdata.isLt
  rw [toNat_wdataField, toNat_wordOf]
  omega

/-- A word is its three fields put together. -/
theorem wordOf_fields (w : HostWord) : wordOf (weField w) (addrField w) (wdataField w) = w := by
  apply BitVec.eq_of_toNat_eq
  have hw := w.isLt
  rw [toNat_wordOf, toNat_addrField, toNat_wdataField, weField_eq]
  by_cases h : 2 ^ 26 ≤ w.toNat
  · simp only [h, decide_true, Bool.toNat_true]; omega
  · simp only [h, decide_false, Bool.toNat_false]; omega

/-- Everything the command table says of an opcode. -/
theorem decodeCommand_cases (op : Byte) :
    (op = 0x01#8 ∧ decodeCommand op = .ok .pack) ∨ (op = 0x02#8 ∧ decodeCommand op = .ok .unpack) ∨
      (op = 0x03#8 ∧ decodeCommand op = .ok .raster) ∨ (op = 0x04#8 ∧ decodeCommand op = .ok .init) ∨
      (op = 0x05#8 ∧ decodeCommand op = .ok .render) ∨ (op = 0x06#8 ∧ decodeCommand op = .ok .commit) ∨
      ((op.toNat = 0 ∨ 7 ≤ op.toNat) ∧ decodeCommand op = .error (.illegalCommand op)) := by
  revert op
  decide

end Sys2Proof
end

