-- ==== Sys2Proof/Laws/Memory.lean ====
section
/-! SUPPORT. What the one write of a memory does to every read of it, and that it keeps the canonical form. -/

namespace Sys2Proof.Machine.Memory

@[simp] theorem read_nil (k : Nat) : read [] k = none := rfl

theorem read_append (m n : Memory) (k : Nat) : read (m ++ n) k = (read m k).or (read n k) := by
  induction m with
  | nil => simp
  | cons cell m ih =>
    by_cases h : cell.1 = k <;> simp [read, h, ih]

theorem read_filter (m : Memory) (p : Nat → Bool) (k : Nat) :
    read (m.filter fun cell => p cell.1) k = if p k then read m k else none := by
  induction m with
  | nil => simp
  | cons cell m ih =>
    by_cases hp : p cell.1 = true
    · by_cases hk : cell.1 = k
      · subst hk; simp [read, hp]
      · simp [read, hp, hk, ih]
    · by_cases hk : cell.1 = k
      · subst hk; simp [hp, ih]
      · simp [read, hp, hk, ih]

theorem read_cellsFrom (bytes : List Byte) (base k : Nat) :
    read (cellsFrom base bytes) k = if base ≤ k then bytes[k - base]? else none := by
  induction bytes generalizing base with
  | nil => simp [cellsFrom]
  | cons b bs ih =>
    by_cases hk : base = k
    · subst hk; simp [cellsFrom, read]
    · simp only [cellsFrom, read, hk, if_false, ih]
      by_cases hle : base ≤ k
      · obtain ⟨j, hj⟩ : ∃ j, k - base = j + 1 := ⟨k - base - 1, by omega⟩
        have h1 : base + 1 ≤ k := by omega
        have h2 : k - (base + 1) = j := by omega
        simp [hle, h1, h2, hj]
      · have h1 : ¬ base + 1 ≤ k := by omega
        simp [hle, h1]

/-- Everything a write does: the written bytes are there, every other index reads as before. -/
theorem read_writeBytes (m : Memory) (base : Nat) (bytes : List Byte) (k : Nat) :
    read (writeBytes m base bytes) k =
      if base ≤ k ∧ k < base + bytes.length then bytes[k - base]? else read m k := by
  rw [writeBytes, read_append, read_append, read_cellsFrom]
  rw [read_filter m (fun j => decide (j < base)) k, read_filter m (fun j => decide (base + bytes.length ≤ j)) k]
  by_cases h1 : base ≤ k
  · have h2 : ¬ k < base := by omega
    by_cases h3 : k < base + bytes.length
    · have h4 : ¬ base + bytes.length ≤ k := by omega
      simp [h1, h2, h3, h4]
    · have h4 : base + bytes.length ≤ k := by omega
      have h5 : bytes.length ≤ k - base := by omega
      simp [h1, h2, h3, h4, h5]
  · have h2 : k < base := by omega
    have h4 : ¬ base + bytes.length ≤ k := by omega
    simp [h1, h2, h4]

theorem read_writeBytes_of_lt (m : Memory) (bytes : List Byte) (base k : Nat) (h : k < base) :
    read (writeBytes m base bytes) k = read m k := by
  rw [read_writeBytes, if_neg (by omega)]

/-- The canonical form, as a pairwise order. -/
theorem wf_iff (m : Memory) : wf m = true ↔ m.Pairwise (fun a b => a.1 < b.1) := by
  induction m with
  | nil => simp [wf]
  | cons cell m ih => simp only [wf, Bool.and_eq_true, List.all_eq_true, decide_eq_true_eq, ih, List.pairwise_cons]

theorem mem_cellsFrom {bytes : List Byte} {base : Nat} {cell : Host.Cell} (h : cell ∈ cellsFrom base bytes) :
    base ≤ cell.1 ∧ cell.1 < base + bytes.length := by
  induction bytes generalizing base with
  | nil => simp [cellsFrom] at h
  | cons b bs ih =>
    rcases List.mem_cons.mp h with rfl | h
    · simp
    · have := ih h
      simp only [List.length_cons]
      omega

theorem pairwise_cellsFrom (bytes : List Byte) (base : Nat) :
    (cellsFrom base bytes).Pairwise (fun a b => a.1 < b.1) := by
  induction bytes generalizing base with
  | nil => exact List.Pairwise.nil
  | cons b bs ih =>
    refine List.pairwise_cons.mpr ⟨fun cell h => ?_, ih (base + 1)⟩
    have := mem_cellsFrom h
    simp only
    omega

/-- Every write keeps the canonical form. -/
theorem wf_writeBytes (m : Memory) (base : Nat) (bytes : List Byte) (h : wf m = true) :
    wf (writeBytes m base bytes) = true := by
  rw [wf_iff] at h ⊢
  unfold writeBytes
  refine List.pairwise_append.mpr ⟨List.pairwise_append.mpr ⟨h.filter _, pairwise_cellsFrom _ _, ?_⟩, h.filter _, ?_⟩
  · intro a ha b hb
    have h1 := (List.mem_filter.mp ha).2
    have h2 := mem_cellsFrom hb
    simp only [decide_eq_true_eq] at h1
    omega
  · intro a ha b hb
    have h2 := (List.mem_filter.mp hb).2
    simp only [decide_eq_true_eq] at h2
    rcases List.mem_append.mp ha with ha | ha
    · have h1 := (List.mem_filter.mp ha).2
      simp only [decide_eq_true_eq] at h1
      omega
    · have h1 := mem_cellsFrom ha
      omega

/-- A write adds no index beyond those it writes. -/
theorem mem_writeBytes {m : Memory} {base : Nat} {bytes : List Byte} {cell : Host.Cell}
    (h : cell ∈ writeBytes m base bytes) :
    cell ∈ m ∨ (base ≤ cell.1 ∧ cell.1 < base + bytes.length) := by
  simp only [writeBytes, List.mem_append, List.mem_filter] at h
  rcases h with (⟨h, -⟩ | h) | ⟨h, -⟩
  · exact .inl h
  · exact .inr (mem_cellsFrom h)
  · exact .inl h

theorem filled_iff (m : Memory) (size : Nat) :
    filled m size = true ↔ ∀ k, k < size → ∃ b, read m k = some b := by
  simp [filled, Option.isSome_iff_exists]

/-- A write never takes a written byte away. -/
theorem filled_writeBytes (m : Memory) (base size : Nat) (bytes : List Byte) (h : filled m size = true) :
    filled (writeBytes m base bytes) size = true := by
  rw [filled_iff] at h ⊢
  intro k hk
  rw [read_writeBytes]
  split
  · next h' => exact ⟨bytes[k - base]'(by omega), List.getElem?_eq_getElem _⟩
  · exact h k hk

/-- Writing a memory whole fills it. -/
theorem filled_writeBytes_zero (m : Memory) (bytes : List Byte) :
    filled (writeBytes m 0 bytes) bytes.length = true := by
  rw [filled_iff]
  intro k hk
  rw [read_writeBytes, if_pos (by omega)]
  exact ⟨bytes[k - 0]'(by omega), List.getElem?_eq_getElem _⟩

end Sys2Proof.Machine.Memory
end

