-- ==== Sys2Proof/Laws/State.lean ====
section
/-! SUPPORT. One lemma per field per update of the state: what each single update leaves in each field, so that no later
proof unfolds a record update. -/

namespace Sys2Proof.Machine

variable (s : State)

/-! ### `setSample` -/

@[simp] theorem setSample_cfg (i : Fin 16) (x : Sample) : (s.setSample i x).cfg = s.cfg := rfl
@[simp] theorem setSample_v (i : Fin 16) (x : Sample) : (s.setSample i x).v = s.v.set i x := rfl
@[simp] theorem setSample_f (i : Fin 16) (x : Sample) : (s.setSample i x).f = s.f := rfl
@[simp] theorem setSample_grid (i : Fin 16) (x : Sample) : (s.setSample i x).grid = s.grid := rfl
@[simp] theorem setSample_fb (i : Fin 16) (x : Sample) : (s.setSample i x).fb = s.fb := rfl
@[simp] theorem setSample_dc (i : Fin 16) (x : Sample) : (s.setSample i x).dc = s.dc := rfl
@[simp] theorem setSample_ffr (i : Fin 16) (x : Sample) : (s.setSample i x).ffr = s.ffr := rfl
@[simp] theorem setSample_initd (i : Fin 16) (x : Sample) : (s.setSample i x).initd = s.initd := rfl
@[simp] theorem setSample_err (i : Fin 16) (x : Sample) : (s.setSample i x).err = s.err := rfl
@[simp] theorem setSample_trace (i : Fin 16) (x : Sample) : (s.setSample i x).trace = s.trace := rfl
@[simp] theorem setSample_sink (i : Fin 16) (x : Sample) : (s.setSample i x).sink = s.sink := rfl
@[simp] theorem setSample_pending (i : Fin 16) (x : Sample) : (s.setSample i x).pending = s.pending := rfl
@[simp] theorem setSample_responses (i : Fin 16) (x : Sample) : (s.setSample i x).responses = s.responses := rfl
@[simp] theorem setSample_epoch (i : Fin 16) (x : Sample) : (s.setSample i x).epoch = s.epoch := rfl
@[simp] theorem setSample_programFault (i : Fin 16) (x : Sample) : (s.setSample i x).programFault = s.programFault := rfl
@[simp] theorem setSample_gridByte (i : Fin 16) (x : Sample) (j : Nat) : (s.setSample i x).gridByte j = s.gridByte j := rfl
@[simp] theorem setSample_fbByte (i : Fin 16) (x : Sample) (j : Nat) : (s.setSample i x).fbByte j = s.fbByte j := rfl
@[simp] theorem setSample_dcByte (i : Fin 16) (x : Sample) (j : Nat) : (s.setSample i x).dcByte j = s.dcByte j := rfl

/-! ### `setSamples` -/

@[simp] theorem setSamples_cfg (xs : Vector Sample 16) : (s.setSamples xs).cfg = s.cfg := rfl
@[simp] theorem setSamples_v (xs : Vector Sample 16) : (s.setSamples xs).v = xs := rfl
@[simp] theorem setSamples_f (xs : Vector Sample 16) : (s.setSamples xs).f = s.f := rfl
@[simp] theorem setSamples_grid (xs : Vector Sample 16) : (s.setSamples xs).grid = s.grid := rfl
@[simp] theorem setSamples_fb (xs : Vector Sample 16) : (s.setSamples xs).fb = s.fb := rfl
@[simp] theorem setSamples_dc (xs : Vector Sample 16) : (s.setSamples xs).dc = s.dc := rfl
@[simp] theorem setSamples_ffr (xs : Vector Sample 16) : (s.setSamples xs).ffr = s.ffr := rfl
@[simp] theorem setSamples_initd (xs : Vector Sample 16) : (s.setSamples xs).initd = s.initd := rfl
@[simp] theorem setSamples_err (xs : Vector Sample 16) : (s.setSamples xs).err = s.err := rfl
@[simp] theorem setSamples_trace (xs : Vector Sample 16) : (s.setSamples xs).trace = s.trace := rfl
@[simp] theorem setSamples_sink (xs : Vector Sample 16) : (s.setSamples xs).sink = s.sink := rfl
@[simp] theorem setSamples_pending (xs : Vector Sample 16) : (s.setSamples xs).pending = s.pending := rfl
@[simp] theorem setSamples_responses (xs : Vector Sample 16) : (s.setSamples xs).responses = s.responses := rfl
@[simp] theorem setSamples_epoch (xs : Vector Sample 16) : (s.setSamples xs).epoch = s.epoch := rfl
@[simp] theorem setSamples_programFault (xs : Vector Sample 16) : (s.setSamples xs).programFault = s.programFault := rfl
@[simp] theorem setSamples_gridByte (xs : Vector Sample 16) (j : Nat) : (s.setSamples xs).gridByte j = s.gridByte j := rfl
@[simp] theorem setSamples_fbByte (xs : Vector Sample 16) (j : Nat) : (s.setSamples xs).fbByte j = s.fbByte j := rfl
@[simp] theorem setSamples_dcByte (xs : Vector Sample 16) (j : Nat) : (s.setSamples xs).dcByte j = s.dcByte j := rfl

/-! ### `setFrameByte` -/

@[simp] theorem setFrameByte_cfg (k : Fin 6) (b : Byte) : (s.setFrameByte k b).cfg = s.cfg := rfl
@[simp] theorem setFrameByte_v (k : Fin 6) (b : Byte) : (s.setFrameByte k b).v = s.v := rfl
@[simp] theorem setFrameByte_f (k : Fin 6) (b : Byte) : (s.setFrameByte k b).f = s.f.set k b := rfl
@[simp] theorem setFrameByte_grid (k : Fin 6) (b : Byte) : (s.setFrameByte k b).grid = s.grid := rfl
@[simp] theorem setFrameByte_fb (k : Fin 6) (b : Byte) : (s.setFrameByte k b).fb = s.fb := rfl
@[simp] theorem setFrameByte_dc (k : Fin 6) (b : Byte) : (s.setFrameByte k b).dc = s.dc := rfl
@[simp] theorem setFrameByte_ffr (k : Fin 6) (b : Byte) : (s.setFrameByte k b).ffr = s.ffr := rfl
@[simp] theorem setFrameByte_initd (k : Fin 6) (b : Byte) : (s.setFrameByte k b).initd = s.initd := rfl
@[simp] theorem setFrameByte_err (k : Fin 6) (b : Byte) : (s.setFrameByte k b).err = s.err := rfl
@[simp] theorem setFrameByte_trace (k : Fin 6) (b : Byte) : (s.setFrameByte k b).trace = s.trace := rfl
@[simp] theorem setFrameByte_sink (k : Fin 6) (b : Byte) : (s.setFrameByte k b).sink = s.sink := rfl
@[simp] theorem setFrameByte_pending (k : Fin 6) (b : Byte) : (s.setFrameByte k b).pending = s.pending := rfl
@[simp] theorem setFrameByte_responses (k : Fin 6) (b : Byte) : (s.setFrameByte k b).responses = s.responses := rfl
@[simp] theorem setFrameByte_epoch (k : Fin 6) (b : Byte) : (s.setFrameByte k b).epoch = s.epoch := rfl
@[simp] theorem setFrameByte_programFault (k : Fin 6) (b : Byte) : (s.setFrameByte k b).programFault = s.programFault := rfl
@[simp] theorem setFrameByte_gridByte (k : Fin 6) (b : Byte) (j : Nat) : (s.setFrameByte k b).gridByte j = s.gridByte j := rfl
@[simp] theorem setFrameByte_fbByte (k : Fin 6) (b : Byte) (j : Nat) : (s.setFrameByte k b).fbByte j = s.fbByte j := rfl
@[simp] theorem setFrameByte_dcByte (k : Fin 6) (b : Byte) (j : Nat) : (s.setFrameByte k b).dcByte j = s.dcByte j := rfl

/-! ### `setFrame` -/

@[simp] theorem setFrame_cfg (bs : Vector Byte 6) : (s.setFrame bs).cfg = s.cfg := rfl
@[simp] theorem setFrame_v (bs : Vector Byte 6) : (s.setFrame bs).v = s.v := rfl
@[simp] theorem setFrame_f (bs : Vector Byte 6) : (s.setFrame bs).f = bs := rfl
@[simp] theorem setFrame_grid (bs : Vector Byte 6) : (s.setFrame bs).grid = s.grid := rfl
@[simp] theorem setFrame_fb (bs : Vector Byte 6) : (s.setFrame bs).fb = s.fb := rfl
@[simp] theorem setFrame_dc (bs : Vector Byte 6) : (s.setFrame bs).dc = s.dc := rfl
@[simp] theorem setFrame_ffr (bs : Vector Byte 6) : (s.setFrame bs).ffr = s.ffr := rfl
@[simp] theorem setFrame_initd (bs : Vector Byte 6) : (s.setFrame bs).initd = s.initd := rfl
@[simp] theorem setFrame_err (bs : Vector Byte 6) : (s.setFrame bs).err = s.err := rfl
@[simp] theorem setFrame_trace (bs : Vector Byte 6) : (s.setFrame bs).trace = s.trace := rfl
@[simp] theorem setFrame_sink (bs : Vector Byte 6) : (s.setFrame bs).sink = s.sink := rfl
@[simp] theorem setFrame_pending (bs : Vector Byte 6) : (s.setFrame bs).pending = s.pending := rfl
@[simp] theorem setFrame_responses (bs : Vector Byte 6) : (s.setFrame bs).responses = s.responses := rfl
@[simp] theorem setFrame_epoch (bs : Vector Byte 6) : (s.setFrame bs).epoch = s.epoch := rfl
@[simp] theorem setFrame_programFault (bs : Vector Byte 6) : (s.setFrame bs).programFault = s.programFault := rfl
@[simp] theorem setFrame_gridByte (bs : Vector Byte 6) (j : Nat) : (s.setFrame bs).gridByte j = s.gridByte j := rfl
@[simp] theorem setFrame_fbByte (bs : Vector Byte 6) (j : Nat) : (s.setFrame bs).fbByte j = s.fbByte j := rfl
@[simp] theorem setFrame_dcByte (bs : Vector Byte 6) (j : Nat) : (s.setFrame bs).dcByte j = s.dcByte j := rfl

/-! ### `writeGrid` -/

@[simp] theorem writeGrid_cfg (base : Nat) (bytes : List Byte) : (s.writeGrid base bytes).cfg = s.cfg := rfl
@[simp] theorem writeGrid_v (base : Nat) (bytes : List Byte) : (s.writeGrid base bytes).v = s.v := rfl
@[simp] theorem writeGrid_f (base : Nat) (bytes : List Byte) : (s.writeGrid base bytes).f = s.f := rfl
@[simp] theorem writeGrid_grid (base : Nat) (bytes : List Byte) : (s.writeGrid base bytes).grid = Memory.writeBytes s.grid base bytes := rfl
@[simp] theorem writeGrid_fb (base : Nat) (bytes : List Byte) : (s.writeGrid base bytes).fb = s.fb := rfl
@[simp] theorem writeGrid_dc (base : Nat) (bytes : List Byte) : (s.writeGrid base bytes).dc = s.dc := rfl
@[simp] theorem writeGrid_ffr (base : Nat) (bytes : List Byte) : (s.writeGrid base bytes).ffr = s.ffr := rfl
@[simp] theorem writeGrid_initd (base : Nat) (bytes : List Byte) : (s.writeGrid base bytes).initd = s.initd := rfl
@[simp] theorem writeGrid_err (base : Nat) (bytes : List Byte) : (s.writeGrid base bytes).err = s.err := rfl
@[simp] theorem writeGrid_trace (base : Nat) (bytes : List Byte) : (s.writeGrid base bytes).trace = s.trace := rfl
@[simp] theorem writeGrid_sink (base : Nat) (bytes : List Byte) : (s.writeGrid base bytes).sink = s.sink := rfl
@[simp] theorem writeGrid_pending (base : Nat) (bytes : List Byte) : (s.writeGrid base bytes).pending = s.pending := rfl
@[simp] theorem writeGrid_responses (base : Nat) (bytes : List Byte) : (s.writeGrid base bytes).responses = s.responses := rfl
@[simp] theorem writeGrid_epoch (base : Nat) (bytes : List Byte) : (s.writeGrid base bytes).epoch = s.epoch := rfl
@[simp] theorem writeGrid_programFault (base : Nat) (bytes : List Byte) : (s.writeGrid base bytes).programFault = s.programFault := rfl
@[simp] theorem writeGrid_fbByte (base : Nat) (bytes : List Byte) (j : Nat) : (s.writeGrid base bytes).fbByte j = s.fbByte j := rfl
@[simp] theorem writeGrid_dcByte (base : Nat) (bytes : List Byte) (j : Nat) : (s.writeGrid base bytes).dcByte j = s.dcByte j := rfl

/-! ### `writeFb` -/

@[simp] theorem writeFb_cfg (base : Nat) (bytes : List Byte) : (s.writeFb base bytes).cfg = s.cfg := rfl
@[simp] theorem writeFb_v (base : Nat) (bytes : List Byte) : (s.writeFb base bytes).v = s.v := rfl
@[simp] theorem writeFb_f (base : Nat) (bytes : List Byte) : (s.writeFb base bytes).f = s.f := rfl
@[simp] theorem writeFb_grid (base : Nat) (bytes : List Byte) : (s.writeFb base bytes).grid = s.grid := rfl
@[simp] theorem writeFb_fb (base : Nat) (bytes : List Byte) : (s.writeFb base bytes).fb = Memory.writeBytes s.fb base bytes := rfl
@[simp] theorem writeFb_dc (base : Nat) (bytes : List Byte) : (s.writeFb base bytes).dc = s.dc := rfl
@[simp] theorem writeFb_ffr (base : Nat) (bytes : List Byte) : (s.writeFb base bytes).ffr = s.ffr := rfl
@[simp] theorem writeFb_initd (base : Nat) (bytes : List Byte) : (s.writeFb base bytes).initd = s.initd := rfl
@[simp] theorem writeFb_err (base : Nat) (bytes : List Byte) : (s.writeFb base bytes).err = s.err := rfl
@[simp] theorem writeFb_trace (base : Nat) (bytes : List Byte) : (s.writeFb base bytes).trace = s.trace := rfl
@[simp] theorem writeFb_sink (base : Nat) (bytes : List Byte) : (s.writeFb base bytes).sink = s.sink := rfl
@[simp] theorem writeFb_pending (base : Nat) (bytes : List Byte) : (s.writeFb base bytes).pending = s.pending := rfl
@[simp] theorem writeFb_responses (base : Nat) (bytes : List Byte) : (s.writeFb base bytes).responses = s.responses := rfl
@[simp] theorem writeFb_epoch (base : Nat) (bytes : List Byte) : (s.writeFb base bytes).epoch = s.epoch := rfl
@[simp] theorem writeFb_programFault (base : Nat) (bytes : List Byte) : (s.writeFb base bytes).programFault = s.programFault := rfl
@[simp] theorem writeFb_gridByte (base : Nat) (bytes : List Byte) (j : Nat) : (s.writeFb base bytes).gridByte j = s.gridByte j := rfl
@[simp] theorem writeFb_dcByte (base : Nat) (bytes : List Byte) (j : Nat) : (s.writeFb base bytes).dcByte j = s.dcByte j := rfl

/-! ### `writeDc` -/

@[simp] theorem writeDc_cfg (base : Nat) (bytes : List Byte) : (s.writeDc base bytes).cfg = s.cfg := rfl
@[simp] theorem writeDc_v (base : Nat) (bytes : List Byte) : (s.writeDc base bytes).v = s.v := rfl
@[simp] theorem writeDc_f (base : Nat) (bytes : List Byte) : (s.writeDc base bytes).f = s.f := rfl
@[simp] theorem writeDc_grid (base : Nat) (bytes : List Byte) : (s.writeDc base bytes).grid = s.grid := rfl
@[simp] theorem writeDc_fb (base : Nat) (bytes : List Byte) : (s.writeDc base bytes).fb = s.fb := rfl
@[simp] theorem writeDc_dc (base : Nat) (bytes : List Byte) : (s.writeDc base bytes).dc = Memory.writeBytes s.dc base bytes := rfl
@[simp] theorem writeDc_ffr (base : Nat) (bytes : List Byte) : (s.writeDc base bytes).ffr = s.ffr := rfl
@[simp] theorem writeDc_initd (base : Nat) (bytes : List Byte) : (s.writeDc base bytes).initd = s.initd := rfl
@[simp] theorem writeDc_err (base : Nat) (bytes : List Byte) : (s.writeDc base bytes).err = s.err := rfl
@[simp] theorem writeDc_trace (base : Nat) (bytes : List Byte) : (s.writeDc base bytes).trace = s.trace := rfl
@[simp] theorem writeDc_sink (base : Nat) (bytes : List Byte) : (s.writeDc base bytes).sink = s.sink := rfl
@[simp] theorem writeDc_pending (base : Nat) (bytes : List Byte) : (s.writeDc base bytes).pending = s.pending := rfl
@[simp] theorem writeDc_responses (base : Nat) (bytes : List Byte) : (s.writeDc base bytes).responses = s.responses := rfl
@[simp] theorem writeDc_epoch (base : Nat) (bytes : List Byte) : (s.writeDc base bytes).epoch = s.epoch := rfl
@[simp] theorem writeDc_programFault (base : Nat) (bytes : List Byte) : (s.writeDc base bytes).programFault = s.programFault := rfl
@[simp] theorem writeDc_gridByte (base : Nat) (bytes : List Byte) (j : Nat) : (s.writeDc base bytes).gridByte j = s.gridByte j := rfl
@[simp] theorem writeDc_fbByte (base : Nat) (bytes : List Byte) (j : Nat) : (s.writeDc base bytes).fbByte j = s.fbByte j := rfl

/-! ### `setFfr` -/

@[simp] theorem setFfr_cfg (b : Bool) : (s.setFfr b).cfg = s.cfg := rfl
@[simp] theorem setFfr_v (b : Bool) : (s.setFfr b).v = s.v := rfl
@[simp] theorem setFfr_f (b : Bool) : (s.setFfr b).f = s.f := rfl
@[simp] theorem setFfr_grid (b : Bool) : (s.setFfr b).grid = s.grid := rfl
@[simp] theorem setFfr_fb (b : Bool) : (s.setFfr b).fb = s.fb := rfl
@[simp] theorem setFfr_dc (b : Bool) : (s.setFfr b).dc = s.dc := rfl
@[simp] theorem setFfr_ffr (b : Bool) : (s.setFfr b).ffr = b := rfl
@[simp] theorem setFfr_initd (b : Bool) : (s.setFfr b).initd = s.initd := rfl
@[simp] theorem setFfr_err (b : Bool) : (s.setFfr b).err = s.err := rfl
@[simp] theorem setFfr_trace (b : Bool) : (s.setFfr b).trace = s.trace := rfl
@[simp] theorem setFfr_sink (b : Bool) : (s.setFfr b).sink = s.sink := rfl
@[simp] theorem setFfr_pending (b : Bool) : (s.setFfr b).pending = s.pending := rfl
@[simp] theorem setFfr_responses (b : Bool) : (s.setFfr b).responses = s.responses := rfl
@[simp] theorem setFfr_epoch (b : Bool) : (s.setFfr b).epoch = s.epoch := rfl
@[simp] theorem setFfr_programFault (b : Bool) : (s.setFfr b).programFault = s.programFault := rfl
@[simp] theorem setFfr_gridByte (b : Bool) (j : Nat) : (s.setFfr b).gridByte j = s.gridByte j := rfl
@[simp] theorem setFfr_fbByte (b : Bool) (j : Nat) : (s.setFfr b).fbByte j = s.fbByte j := rfl
@[simp] theorem setFfr_dcByte (b : Bool) (j : Nat) : (s.setFfr b).dcByte j = s.dcByte j := rfl

/-! ### `setInitd` -/

@[simp] theorem setInitd_cfg (b : Bool) : (s.setInitd b).cfg = s.cfg := rfl
@[simp] theorem setInitd_v (b : Bool) : (s.setInitd b).v = s.v := rfl
@[simp] theorem setInitd_f (b : Bool) : (s.setInitd b).f = s.f := rfl
@[simp] theorem setInitd_grid (b : Bool) : (s.setInitd b).grid = s.grid := rfl
@[simp] theorem setInitd_fb (b : Bool) : (s.setInitd b).fb = s.fb := rfl
@[simp] theorem setInitd_dc (b : Bool) : (s.setInitd b).dc = s.dc := rfl
@[simp] theorem setInitd_ffr (b : Bool) : (s.setInitd b).ffr = s.ffr := rfl
@[simp] theorem setInitd_initd (b : Bool) : (s.setInitd b).initd = b := rfl
@[simp] theorem setInitd_err (b : Bool) : (s.setInitd b).err = s.err := rfl
@[simp] theorem setInitd_trace (b : Bool) : (s.setInitd b).trace = s.trace := rfl
@[simp] theorem setInitd_sink (b : Bool) : (s.setInitd b).sink = s.sink := rfl
@[simp] theorem setInitd_pending (b : Bool) : (s.setInitd b).pending = s.pending := rfl
@[simp] theorem setInitd_responses (b : Bool) : (s.setInitd b).responses = s.responses := rfl
@[simp] theorem setInitd_epoch (b : Bool) : (s.setInitd b).epoch = s.epoch := rfl
@[simp] theorem setInitd_programFault (b : Bool) : (s.setInitd b).programFault = s.programFault := rfl
@[simp] theorem setInitd_gridByte (b : Bool) (j : Nat) : (s.setInitd b).gridByte j = s.gridByte j := rfl
@[simp] theorem setInitd_fbByte (b : Bool) (j : Nat) : (s.setInitd b).fbByte j = s.fbByte j := rfl
@[simp] theorem setInitd_dcByte (b : Bool) (j : Nat) : (s.setInitd b).dcByte j = s.dcByte j := rfl

/-! ### `clearErr` -/

@[simp] theorem clearErr_cfg : s.clearErr.cfg = s.cfg := rfl
@[simp] theorem clearErr_v : s.clearErr.v = s.v := rfl
@[simp] theorem clearErr_f : s.clearErr.f = s.f := rfl
@[simp] theorem clearErr_grid : s.clearErr.grid = s.grid := rfl
@[simp] theorem clearErr_fb : s.clearErr.fb = s.fb := rfl
@[simp] theorem clearErr_dc : s.clearErr.dc = s.dc := rfl
@[simp] theorem clearErr_ffr : s.clearErr.ffr = s.ffr := rfl
@[simp] theorem clearErr_initd : s.clearErr.initd = s.initd := rfl
@[simp] theorem clearErr_err : s.clearErr.err = 0x00#8 := rfl
@[simp] theorem clearErr_trace : s.clearErr.trace = s.trace := rfl
@[simp] theorem clearErr_sink : s.clearErr.sink = s.sink := rfl
@[simp] theorem clearErr_pending : s.clearErr.pending = s.pending := rfl
@[simp] theorem clearErr_responses : s.clearErr.responses = s.responses := rfl
@[simp] theorem clearErr_epoch : s.clearErr.epoch = s.epoch := rfl
@[simp] theorem clearErr_programFault : s.clearErr.programFault = s.programFault := rfl
@[simp] theorem clearErr_gridByte (j : Nat) : s.clearErr.gridByte j = s.gridByte j := rfl
@[simp] theorem clearErr_fbByte (j : Nat) : s.clearErr.fbByte j = s.fbByte j := rfl
@[simp] theorem clearErr_dcByte (j : Nat) : s.clearErr.dcByte j = s.dcByte j := rfl

/-! ### `markProgramFault` -/

@[simp] theorem markProgramFault_cfg (bad : Bool) : (s.markProgramFault bad).cfg = s.cfg := rfl
@[simp] theorem markProgramFault_v (bad : Bool) : (s.markProgramFault bad).v = s.v := rfl
@[simp] theorem markProgramFault_f (bad : Bool) : (s.markProgramFault bad).f = s.f := rfl
@[simp] theorem markProgramFault_grid (bad : Bool) : (s.markProgramFault bad).grid = s.grid := rfl
@[simp] theorem markProgramFault_fb (bad : Bool) : (s.markProgramFault bad).fb = s.fb := rfl
@[simp] theorem markProgramFault_dc (bad : Bool) : (s.markProgramFault bad).dc = s.dc := rfl
@[simp] theorem markProgramFault_ffr (bad : Bool) : (s.markProgramFault bad).ffr = s.ffr := rfl
@[simp] theorem markProgramFault_initd (bad : Bool) : (s.markProgramFault bad).initd = s.initd := rfl
@[simp] theorem markProgramFault_err (bad : Bool) : (s.markProgramFault bad).err = s.err := rfl
@[simp] theorem markProgramFault_trace (bad : Bool) : (s.markProgramFault bad).trace = s.trace := rfl
@[simp] theorem markProgramFault_sink (bad : Bool) : (s.markProgramFault bad).sink = s.sink := rfl
@[simp] theorem markProgramFault_pending (bad : Bool) : (s.markProgramFault bad).pending = s.pending := rfl
@[simp] theorem markProgramFault_responses (bad : Bool) : (s.markProgramFault bad).responses = s.responses := rfl
@[simp] theorem markProgramFault_epoch (bad : Bool) : (s.markProgramFault bad).epoch = s.epoch := rfl
@[simp] theorem markProgramFault_programFault (bad : Bool) : (s.markProgramFault bad).programFault = (s.programFault || bad) := rfl
@[simp] theorem markProgramFault_gridByte (bad : Bool) (j : Nat) : (s.markProgramFault bad).gridByte j = s.gridByte j := rfl
@[simp] theorem markProgramFault_fbByte (bad : Bool) (j : Nat) : (s.markProgramFault bad).fbByte j = s.fbByte j := rfl
@[simp] theorem markProgramFault_dcByte (bad : Bool) (j : Nat) : (s.markProgramFault bad).dcByte j = s.dcByte j := rfl

/-! ### `respond` -/

@[simp] theorem respond_cfg (rdata : Byte) : (s.respond rdata).cfg = s.cfg := rfl
@[simp] theorem respond_v (rdata : Byte) : (s.respond rdata).v = s.v := rfl
@[simp] theorem respond_f (rdata : Byte) : (s.respond rdata).f = s.f := rfl
@[simp] theorem respond_grid (rdata : Byte) : (s.respond rdata).grid = s.grid := rfl
@[simp] theorem respond_fb (rdata : Byte) : (s.respond rdata).fb = s.fb := rfl
@[simp] theorem respond_dc (rdata : Byte) : (s.respond rdata).dc = s.dc := rfl
@[simp] theorem respond_ffr (rdata : Byte) : (s.respond rdata).ffr = s.ffr := rfl
@[simp] theorem respond_initd (rdata : Byte) : (s.respond rdata).initd = s.initd := rfl
@[simp] theorem respond_err (rdata : Byte) : (s.respond rdata).err = s.err := rfl
@[simp] theorem respond_trace (rdata : Byte) : (s.respond rdata).trace = s.trace := rfl
@[simp] theorem respond_sink (rdata : Byte) : (s.respond rdata).sink = s.sink := rfl
@[simp] theorem respond_pending (rdata : Byte) : (s.respond rdata).pending = s.pending := rfl
@[simp] theorem respond_responses (rdata : Byte) : (s.respond rdata).responses = s.responses ++ [{ rdata := rdata, err := false }] := rfl
@[simp] theorem respond_epoch (rdata : Byte) : (s.respond rdata).epoch = s.epoch := rfl
@[simp] theorem respond_programFault (rdata : Byte) : (s.respond rdata).programFault = s.programFault := rfl
@[simp] theorem respond_gridByte (rdata : Byte) (j : Nat) : (s.respond rdata).gridByte j = s.gridByte j := rfl
@[simp] theorem respond_fbByte (rdata : Byte) (j : Nat) : (s.respond rdata).fbByte j = s.fbByte j := rfl
@[simp] theorem respond_dcByte (rdata : Byte) (j : Nat) : (s.respond rdata).dcByte j = s.dcByte j := rfl

/-! ### `raise` -/

@[simp] theorem raise_cfg (e : ErrorCode) : (s.raise e).cfg = s.cfg := rfl
@[simp] theorem raise_v (e : ErrorCode) : (s.raise e).v = s.v := rfl
@[simp] theorem raise_f (e : ErrorCode) : (s.raise e).f = s.f := rfl
@[simp] theorem raise_grid (e : ErrorCode) : (s.raise e).grid = s.grid := rfl
@[simp] theorem raise_fb (e : ErrorCode) : (s.raise e).fb = s.fb := rfl
@[simp] theorem raise_dc (e : ErrorCode) : (s.raise e).dc = s.dc := rfl
@[simp] theorem raise_ffr (e : ErrorCode) : (s.raise e).ffr = s.ffr := rfl
@[simp] theorem raise_initd (e : ErrorCode) : (s.raise e).initd = s.initd := rfl
@[simp] theorem raise_err (e : ErrorCode) : (s.raise e).err = if s.err = 0x00#8 then e.code else s.err := rfl
@[simp] theorem raise_trace (e : ErrorCode) : (s.raise e).trace = s.trace := rfl
@[simp] theorem raise_sink (e : ErrorCode) : (s.raise e).sink = s.sink := rfl
@[simp] theorem raise_pending (e : ErrorCode) : (s.raise e).pending = s.pending := rfl
@[simp] theorem raise_responses (e : ErrorCode) : (s.raise e).responses = s.responses ++ [{ rdata := 0x00#8, err := true }] := rfl
@[simp] theorem raise_epoch (e : ErrorCode) : (s.raise e).epoch = s.epoch := rfl
@[simp] theorem raise_programFault (e : ErrorCode) : (s.raise e).programFault = s.programFault := rfl
@[simp] theorem raise_gridByte (e : ErrorCode) (j : Nat) : (s.raise e).gridByte j = s.gridByte j := rfl
@[simp] theorem raise_fbByte (e : ErrorCode) (j : Nat) : (s.raise e).fbByte j = s.fbByte j := rfl
@[simp] theorem raise_dcByte (e : ErrorCode) (j : Nat) : (s.raise e).dcByte j = s.dcByte j := rfl

/-! ### `emitted` -/

@[simp] theorem emitted_cfg (es : List Emission) : (s.emitted es).cfg = s.cfg := rfl
@[simp] theorem emitted_v (es : List Emission) : (s.emitted es).v = s.v := rfl
@[simp] theorem emitted_f (es : List Emission) : (s.emitted es).f = s.f := rfl
@[simp] theorem emitted_grid (es : List Emission) : (s.emitted es).grid = s.grid := rfl
@[simp] theorem emitted_fb (es : List Emission) : (s.emitted es).fb = s.fb := rfl
@[simp] theorem emitted_dc (es : List Emission) : (s.emitted es).dc = s.dc := rfl
@[simp] theorem emitted_ffr (es : List Emission) : (s.emitted es).ffr = s.ffr := rfl
@[simp] theorem emitted_initd (es : List Emission) : (s.emitted es).initd = s.initd := rfl
@[simp] theorem emitted_err (es : List Emission) : (s.emitted es).err = s.err := rfl
@[simp] theorem emitted_trace (es : List Emission) : (s.emitted es).trace = s.trace ++ es.flatMap (Emission.bursts s.cfg) := rfl
@[simp] theorem emitted_sink (es : List Emission) : (s.emitted es).sink = es.foldl (Sink.take s.cfg) (s.sink.spend (tokenCount (es.flatMap (Emission.bursts s.cfg)))) := rfl
@[simp] theorem emitted_pending (es : List Emission) : (s.emitted es).pending = s.pending := rfl
@[simp] theorem emitted_responses (es : List Emission) : (s.emitted es).responses = s.responses := rfl
@[simp] theorem emitted_epoch (es : List Emission) : (s.emitted es).epoch = s.epoch := rfl
@[simp] theorem emitted_programFault (es : List Emission) : (s.emitted es).programFault = s.programFault := rfl
@[simp] theorem emitted_gridByte (es : List Emission) (j : Nat) : (s.emitted es).gridByte j = s.gridByte j := rfl
@[simp] theorem emitted_fbByte (es : List Emission) (j : Nat) : (s.emitted es).fbByte j = s.fbByte j := rfl
@[simp] theorem emitted_dcByte (es : List Emission) (j : Nat) : (s.emitted es).dcByte j = s.dcByte j := rfl

/-! ### `applyReset` -/

@[simp] theorem applyReset_cfg : s.applyReset.cfg = s.cfg := rfl
@[simp] theorem applyReset_v : s.applyReset.v = Vector.replicate 16 0#3 := rfl
@[simp] theorem applyReset_f : s.applyReset.f = Vector.replicate 6 0x00#8 := rfl
@[simp] theorem applyReset_grid : s.applyReset.grid = [] := rfl
@[simp] theorem applyReset_fb : s.applyReset.fb = [] := rfl
@[simp] theorem applyReset_dc : s.applyReset.dc = [] := rfl
@[simp] theorem applyReset_ffr : s.applyReset.ffr = true := rfl
@[simp] theorem applyReset_initd : s.applyReset.initd = false := rfl
@[simp] theorem applyReset_err : s.applyReset.err = 0x00#8 := rfl
@[simp] theorem applyReset_trace : s.applyReset.trace = [] := rfl
@[simp] theorem applyReset_sink : s.applyReset.sink = s.sink := rfl
@[simp] theorem applyReset_pending : s.applyReset.pending = s.pending := rfl
@[simp] theorem applyReset_responses : s.applyReset.responses = s.responses := rfl
@[simp] theorem applyReset_epoch : s.applyReset.epoch = s.epoch + 1 := rfl
@[simp] theorem applyReset_programFault : s.applyReset.programFault = s.programFault := rfl

/-! ### `loseDisplay` -/

@[simp] theorem loseDisplay_cfg : s.loseDisplay.cfg = s.cfg := rfl
@[simp] theorem loseDisplay_v : s.loseDisplay.v = s.v := rfl
@[simp] theorem loseDisplay_f : s.loseDisplay.f = s.f := rfl
@[simp] theorem loseDisplay_grid : s.loseDisplay.grid = s.grid := rfl
@[simp] theorem loseDisplay_fb : s.loseDisplay.fb = s.fb := rfl
@[simp] theorem loseDisplay_dc : s.loseDisplay.dc = s.dc := rfl
@[simp] theorem loseDisplay_ffr : s.loseDisplay.ffr = s.ffr := rfl
@[simp] theorem loseDisplay_initd : s.loseDisplay.initd = s.initd := rfl
@[simp] theorem loseDisplay_err : s.loseDisplay.err = s.err := rfl
@[simp] theorem loseDisplay_trace : s.loseDisplay.trace = s.trace := rfl
@[simp] theorem loseDisplay_sink : s.loseDisplay.sink = s.sink.lost := rfl
@[simp] theorem loseDisplay_pending : s.loseDisplay.pending = s.pending := rfl
@[simp] theorem loseDisplay_responses : s.loseDisplay.responses = s.responses := rfl
@[simp] theorem loseDisplay_epoch : s.loseDisplay.epoch = s.epoch := rfl
@[simp] theorem loseDisplay_programFault : s.loseDisplay.programFault = s.programFault := rfl
@[simp] theorem loseDisplay_gridByte (j : Nat) : s.loseDisplay.gridByte j = s.gridByte j := rfl
@[simp] theorem loseDisplay_fbByte (j : Nat) : s.loseDisplay.fbByte j = s.fbByte j := rfl
@[simp] theorem loseDisplay_dcByte (j : Nat) : s.loseDisplay.dcByte j = s.dcByte j := rfl

/-! ### `withPending` -/

@[simp] theorem withPending_cfg (events : List HostEvent) : (s.withPending events).cfg = s.cfg := rfl
@[simp] theorem withPending_v (events : List HostEvent) : (s.withPending events).v = s.v := rfl
@[simp] theorem withPending_f (events : List HostEvent) : (s.withPending events).f = s.f := rfl
@[simp] theorem withPending_grid (events : List HostEvent) : (s.withPending events).grid = s.grid := rfl
@[simp] theorem withPending_fb (events : List HostEvent) : (s.withPending events).fb = s.fb := rfl
@[simp] theorem withPending_dc (events : List HostEvent) : (s.withPending events).dc = s.dc := rfl
@[simp] theorem withPending_ffr (events : List HostEvent) : (s.withPending events).ffr = s.ffr := rfl
@[simp] theorem withPending_initd (events : List HostEvent) : (s.withPending events).initd = s.initd := rfl
@[simp] theorem withPending_err (events : List HostEvent) : (s.withPending events).err = s.err := rfl
@[simp] theorem withPending_trace (events : List HostEvent) : (s.withPending events).trace = s.trace := rfl
@[simp] theorem withPending_sink (events : List HostEvent) : (s.withPending events).sink = s.sink := rfl
@[simp] theorem withPending_pending (events : List HostEvent) : (s.withPending events).pending = events := rfl
@[simp] theorem withPending_responses (events : List HostEvent) : (s.withPending events).responses = s.responses := rfl
@[simp] theorem withPending_epoch (events : List HostEvent) : (s.withPending events).epoch = s.epoch := rfl
@[simp] theorem withPending_programFault (events : List HostEvent) : (s.withPending events).programFault = s.programFault := rfl
@[simp] theorem withPending_gridByte (events : List HostEvent) (j : Nat) : (s.withPending events).gridByte j = s.gridByte j := rfl
@[simp] theorem withPending_fbByte (events : List HostEvent) (j : Nat) : (s.withPending events).fbByte j = s.fbByte j := rfl
@[simp] theorem withPending_dcByte (events : List HostEvent) (j : Nat) : (s.withPending events).dcByte j = s.dcByte j := rfl

end Sys2Proof.Machine
end

