-- ==== Sys2Proof/Laws/Ops.lean ====
section
/-! SUPPORT. One specification lemma per shared operation: whole-memory writes, emission, the reference sink, chunking and
the cache update. -/

namespace Sys2Proof.Machine

/-! ### Bytes of a memory after a write -/

@[simp] theorem length_bytesOf (n : Nat) (g : Nat → Byte) : (bytesOf n g).length = n := by simp [bytesOf]

theorem getElem?_bytesOf (n : Nat) (g : Nat → Byte) (k : Nat) (h : k < n) : (bytesOf n g)[k]? = some (g k) := by
  simp [bytesOf, h]

theorem getD_read_writeBytes (m : Memory) (base : Nat) (n : Nat) (g : Nat → Byte) (k : Nat) (d : Byte) :
    (Memory.read (Memory.writeBytes m base (bytesOf n g)) k).getD d =
      if base ≤ k ∧ k < base + n then g (k - base) else (Memory.read m k).getD d := by
  rw [Memory.read_writeBytes, length_bytesOf]
  split
  · next h => rw [getElem?_bytesOf n g _ (by omega)]; rfl
  · rfl

theorem gridByte_writeGrid (s : State) (base n : Nat) (g : Nat → Byte) (k : Nat) :
    (s.writeGrid base (bytesOf n g)).gridByte k = if base ≤ k ∧ k < base + n then g (k - base) else s.gridByte k :=
  getD_read_writeBytes ..

theorem fbByte_writeFb (s : State) (base n : Nat) (g : Nat → Byte) (k : Nat) :
    (s.writeFb base (bytesOf n g)).fbByte k = if base ≤ k ∧ k < base + n then g (k - base) else s.fbByte k :=
  getD_read_writeBytes ..

theorem dcByte_writeDc (s : State) (base n : Nat) (g : Nat → Byte) (k : Nat) :
    (s.writeDc base (bytesOf n g)).dcByte k = if base ≤ k ∧ k < base + n then g (k - base) else s.dcByte k :=
  getD_read_writeBytes ..

/-- One byte written to `GRID` is read back there and nowhere else. -/
theorem gridByte_writeGrid_one (s : State) (i k : Nat) (d : Byte) :
    (s.writeGrid i [d]).gridByte k = if k = i then d else s.gridByte k := by
  show (Memory.read (Memory.writeBytes s.grid i [d]) k).getD _ = _
  rw [Memory.read_writeBytes]
  by_cases h : k = i
  · subst h; simp
  · rw [if_neg (by simp only [List.length_singleton]; omega), if_neg h]
    rfl

/-! ### Outcomes -/

/-- Going on answers next exactly when both parts do. -/
theorem andThen_eq_next {o : Host.Outcome State Fault Refusal} {k : State → Host.Outcome State Fault Refusal} {t : State} :
    andThen o k = .next t ↔ ∃ u, o = .next u ∧ k u = .next t := by
  cases o <;> simp [andThen]

/-- Everything `emit` can do. -/
theorem emit_cases (s : State) (es : List Emission) :
    (s.sink.accepts (tokenCount (es.flatMap (Emission.bursts s.cfg))) = true ∧ s.emit es = .next (s.emitted es)) ∨
      (s.sink.accepts (tokenCount (es.flatMap (Emission.bursts s.cfg))) = false ∧ s.emit es = .fault .sinkStalled) := by
  unfold State.emit
  cases s.sink.accepts (tokenCount (es.flatMap (Emission.bursts s.cfg))) <;> simp

theorem emit_eq_next {s t : State} {es : List Emission} :
    s.emit es = .next t ↔
      s.sink.accepts (tokenCount (es.flatMap (Emission.bursts s.cfg))) = true ∧ s.emitted es = t := by
  rcases emit_cases s es with ⟨h, e⟩ | ⟨h, e⟩ <;> simp [h, e]

/-! ### Tokens and the sink -/

@[simp] theorem tokenCount_nil : tokenCount [] = 0 := rfl

@[simp] theorem tokenCount_append (a b : List Burst) : tokenCount (a ++ b) = tokenCount a + tokenCount b := by
  simp [tokenCount]

@[simp] theorem tokens_length_data (bytes : List Byte) : (Burst.data bytes).tokens.length = bytes.length := by
  simp [Burst.tokens]

@[simp] theorem tokens_length_command (b : Byte) : (Burst.command b).tokens.length = 1 := rfl

@[simp] theorem spend_zero (d : Sink) : d.spend 0 = d := by
  cases d with | mk room => cases room <;> simp [Sink.spend]

theorem spend_spend (d : Sink) (m n : Nat) : (d.spend m).spend n = d.spend (m + n) := by
  cases d with | mk room => cases room <;> simp [Sink.spend, Nat.sub_sub]

/-- The cursor and `DEV` do not depend on how many tokens the sink will still take. -/
theorem take_spend (c : Config) (d : Sink) (e : Emission) (n : Nat) :
    Sink.take c (d.spend n) e = (Sink.take c d e).spend n := by
  cases e <;> rfl

theorem foldl_take_spend (c : Config) (es : List Emission) (d : Sink) (n : Nat) :
    es.foldl (Sink.take c) (d.spend n) = (es.foldl (Sink.take c) d).spend n := by
  induction es generalizing d with
  | nil => rfl
  | cons e es ih => rw [List.foldl_cons, take_spend, ih, List.foldl_cons]

@[simp] theorem spend_devByte (d : Sink) (n k : Nat) : (d.spend n).devByte k = d.devByte k := rfl

/-- Taking the emissions of a list keeps what the sink knows of its own unknown contents. -/
theorem foldl_take_devEpoch (c : Config) (es : List Emission) (d : Sink) :
    (es.foldl (Sink.take c) d).devEpoch = d.devEpoch := by
  induction es generalizing d with
  | nil => rfl
  | cons e es ih => rw [List.foldl_cons, ih]; cases e <;> rfl

/-- Data bursts that stay on the page land on consecutive columns. -/
theorem foldl_take_data (c : Config) (chunks : List (List Byte)) (d : Sink)
    (h : d.curCol + chunks.flatten.length ≤ c.width) (k : Nat) :
    Memory.read ((chunks.map Emission.data).foldl (Sink.take c) d).dev k =
      if d.curPage * c.width + d.curCol ≤ k ∧ k < d.curPage * c.width + d.curCol + chunks.flatten.length then
        chunks.flatten[k - (d.curPage * c.width + d.curCol)]?
      else Memory.read d.dev k := by
  induction chunks generalizing d with
  | nil =>
    rw [if_neg (by simp only [List.flatten_nil, List.length_nil]; omega)]
    rfl
  | cons bytes rest ih =>
    rw [List.flatten_cons, List.length_append] at h
    refine (ih (Sink.take c d (.data bytes)) (by simp only [Sink.take]; omega)).trans ?_
    show (if d.curPage * c.width + (d.curCol + bytes.length) ≤ k ∧
          k < d.curPage * c.width + (d.curCol + bytes.length) + rest.flatten.length then
        rest.flatten[k - (d.curPage * c.width + (d.curCol + bytes.length))]?
      else Memory.read (Memory.writeBytes d.dev (d.curPage * c.width + d.curCol) (bytes.take (c.width - d.curCol))) k) = _
    rw [Memory.read_writeBytes, List.take_of_length_le (by omega), List.flatten_cons, List.length_append]
    by_cases h1 : d.curPage * c.width + (d.curCol + bytes.length) ≤ k ∧
        k < d.curPage * c.width + (d.curCol + bytes.length) + rest.flatten.length
    · rw [if_pos h1, if_pos (by omega), List.getElem?_append_right (by omega)]
      congr 1
      omega
    · rw [if_neg h1]
      by_cases h2 : d.curPage * c.width + d.curCol ≤ k ∧ k < d.curPage * c.width + d.curCol + bytes.length
      · rw [if_pos h2, if_pos (by omega), List.getElem?_append_left (by omega)]
      · rw [if_neg h2, if_neg (by omega)]

/-! ### Chunking -/

/-- Chunks are a partition of the bytes, in order. -/
theorem flatten_chunks (n : Nat) (hn : 1 ≤ n) (bytes : List Byte) : (chunks n bytes).flatten = bytes := by
  have key : ∀ m : Nat, ((List.range m).map fun j => (bytes.drop (j * n)).take n).flatten = bytes.take (m * n) := by
    intro m
    induction m with
    | zero => simp
    | succ m ih =>
      rw [List.range_succ, List.map_append, List.flatten_append, ih]
      simp only [List.map_cons, List.map_nil, List.flatten_cons, List.flatten_nil, List.append_nil]
      rw [Nat.succ_mul, List.take_add]
  rw [chunks, key, List.take_of_length_le]
  have := Nat.div_add_mod (bytes.length + n - 1) n
  have := Nat.mod_lt (bytes.length + n - 1) hn
  rw [Nat.mul_comm]
  omega

/-- Every chunk holds between 1 and `n` bytes. -/
theorem length_of_mem_chunks {n : Nat} (hn : 1 ≤ n) {bytes chunk : List Byte} (h : chunk ∈ chunks n bytes) :
    1 ≤ chunk.length ∧ chunk.length ≤ n := by
  simp only [chunks, List.mem_map, List.mem_range] at h
  obtain ⟨j, hj, rfl⟩ := h
  have h1 : j + 1 ≤ (bytes.length + n - 1) / n := hj
  have h2 := (Nat.le_div_iff_mul_le hn).mp h1
  rw [Nat.succ_mul] at h2
  simp only [List.length_take, List.length_drop]
  omega

/-! ### The pages of a COMMIT -/

@[simp] theorem length_pageBytes (s : State) (p : Nat) : (s.pageBytes p).length = s.cfg.width := by
  simp [State.pageBytes]

/-- Column `x` of page `p` is index `p * w + x`, and page `p` is where the division by `w` says. -/
theorem page_index {w k p : Nat} (hw : 1 ≤ w) : (p * w ≤ k ∧ k < p * w + w) ↔ k / w = p := by
  rw [Nat.div_eq_iff hw]
  omega

/-- The cache update of one page. -/
theorem dcByte_cachePage (s : State) (p k : Nat) (hw : 1 ≤ s.cfg.width) :
    (s.cachePage p).dcByte k = if k / s.cfg.width = p then s.fbByte k else s.dcByte k := by
  unfold State.cachePage State.pageBytes
  rw [dcByte_writeDc]
  by_cases h : k / s.cfg.width = p
  · have h' := (page_index hw).mpr h
    rw [if_pos h, if_pos h', Nat.add_sub_cancel' h'.1]
  · rw [if_neg h, if_neg (fun h' => h ((page_index hw).mp h'))]

/-- A fold of cache updates touches `DC` alone. -/
theorem foldl_cachePage (pages : List Nat) (s : State) :
    ∃ m, pages.foldl State.cachePage s = { s with dc := m } := by
  induction pages generalizing s with
  | nil => exact ⟨s.dc, rfl⟩
  | cons p pages ih =>
    obtain ⟨m, hm⟩ := ih (s.cachePage p)
    exact ⟨m, hm⟩

/-- The cache update of a list of pages. -/
theorem dcByte_foldl_cachePage (pages : List Nat) (s : State) (k : Nat) (hw : 1 ≤ s.cfg.width) :
    (pages.foldl State.cachePage s).dcByte k = if k / s.cfg.width ∈ pages then s.fbByte k else s.dcByte k := by
  induction pages generalizing s with
  | nil => simp
  | cons p pages ih =>
    rw [List.foldl_cons, ih (s.cachePage p) hw]
    show (if k / s.cfg.width ∈ pages then s.fbByte k else (s.cachePage p).dcByte k) = _
    rw [dcByte_cachePage s p k hw]
    by_cases h1 : k / s.cfg.width ∈ pages <;> by_cases h2 : k / s.cfg.width = p <;> simp [h1, h2]

/-- What the reference sink's `DEV` holds after one sent page. -/
theorem devByte_take_page (s : State) (d : Sink) (p k : Nat) (hw : 1 ≤ s.cfg.width) (hn : 1 ≤ s.cfg.chunkMax) :
    ((s.pageEmissions p).foldl (Sink.take s.cfg) d).devByte k =
      if k / s.cfg.width = p then s.fbByte k else d.devByte k := by
  unfold State.pageEmissions
  rw [List.foldl_cons]
  unfold Sink.devByte
  rw [foldl_take_devEpoch, foldl_take_data]
  · rw [flatten_chunks _ hn]
    simp only [Sink.take, Nat.add_zero, length_pageBytes]
    by_cases h : k / s.cfg.width = p
    · have h' := (page_index hw).mpr h
      rw [if_pos h, if_pos h', State.pageBytes, getElem?_bytesOf _ _ _ (by omega), Nat.add_sub_cancel' h'.1]
      rfl
    · rw [if_neg h, if_neg (fun h' => h ((page_index hw).mp h'))]
  · simp [Sink.take, flatten_chunks _ hn]

/-- What the reference sink's `DEV` holds after a list of sent pages. -/
theorem devByte_take_pages (s : State) (pages : List Nat) (d : Sink) (k : Nat) (hw : 1 ≤ s.cfg.width)
    (hn : 1 ≤ s.cfg.chunkMax) :
    ((pages.flatMap s.pageEmissions).foldl (Sink.take s.cfg) d).devByte k =
      if k / s.cfg.width ∈ pages then s.fbByte k else d.devByte k := by
  induction pages generalizing d with
  | nil => simp
  | cons p pages ih =>
    rw [List.flatMap_cons, List.foldl_append, ih, devByte_take_page s d p k hw hn]
    by_cases h1 : k / s.cfg.width ∈ pages <;> by_cases h2 : k / s.cfg.width = p <;> simp [h1, h2]

/-- A page that is not sent is equal in `FB` and `DC`. -/
theorem eq_of_not_pageDirty {s : State} {p : Nat} (h : s.pageDirty p = false) {k : Nat} (hw : 1 ≤ s.cfg.width)
    (hk : k / s.cfg.width = p) : s.fbByte k = s.dcByte k := by
  simp only [State.pageDirty, List.any_eq_false, List.mem_range, bne_iff_ne, ne_eq, Decidable.not_not] at h
  have h' := (page_index hw).mpr hk
  have := h (k - p * s.cfg.width) (by omega)
  rwa [Nat.add_sub_cancel' h'.1] at this

end Sys2Proof.Machine
end

