-- ==== Sys2Proof/Laws/Exec.lean ====
section
/-! SUPPORT. One inversion lemma per meaning: everything it can do. Later proofs cite these and do not unfold `exec`. -/

namespace Sys2Proof.Machine

/-! ### The address map -/

/-- Everything the address map can answer, with the addresses it answers it for (20_memory.md R52). -/
theorem locate_cases (c : Config) (addr : HostAddr) :
    (addr.toNat = 0x0 ∧ locate c addr = .cmd) ∨ (addr.toNat = 0x1 ∧ locate c addr = .status) ∨
    (addr.toNat = 0x2 ∧ locate c addr = .err) ∨ (addr.toNat = 0x4 ∧ locate c addr = .cols) ∨
    (addr.toNat = 0x5 ∧ locate c addr = .rows) ∨ (addr.toNat = 0x6 ∧ locate c addr = .width) ∨
    (addr.toNat = 0x7 ∧ locate c addr = .height) ∨ (addr.toNat = 0x8 ∧ locate c addr = .pages) ∨
    (addr.toNat = 0x9 ∧ locate c addr = .chunk) ∨
    (∃ i : Fin 16, addr.toNat = 0x10 + i.val ∧ locate c addr = .sample i) ∨
    (∃ k : Fin 6, addr.toNat = 0x20 + k.val ∧ locate c addr = .frame k) ∨
    (∃ k, k < c.gridSize ∧ addr.toNat = 0x10000 + k ∧ addr.toNat < 0x20000 ∧ locate c addr = .grid k) ∨
    (∃ k, k < c.fbSize ∧ addr.toNat = 0x20000 + k ∧ locate c addr = .fb k) ∨
    ((addr.toNat = 0x3 ∨ (0xA ≤ addr.toNat ∧ addr.toNat ≤ 0xF) ∨ (0x26 ≤ addr.toNat ∧ addr.toNat < 0x10000) ∨
      (0x10000 + c.gridSize ≤ addr.toNat ∧ addr.toNat < 0x20000) ∨
      (0x20000 + c.fbSize ≤ addr.toNat ∧ addr.toNat < 0x40000)) ∧ locate c addr = .unmapped) := by
  have hlt := addr.isLt
  unfold locate
  generalize addr.toNat = a at hlt ⊢
  by_cases h1 : a < 0x10
  · have e : locateNat c a = locateControl a := if_pos h1
    rw [e]
    interval_cases a <;> simp [locateControl]
  by_cases h2 : a < 0x20
  · have e : locateNat c a = .sample ⟨a - 0x10, by omega⟩ := by
      rw [locateNat, if_neg h1, dif_pos h2]
    iterate 9 right
    exact .inl ⟨⟨a - 0x10, by omega⟩, by simp only; omega, e⟩
  by_cases h3 : a < 0x26
  · have e : locateNat c a = .frame ⟨a - 0x20, by omega⟩ := by
      rw [locateNat, if_neg h1, dif_neg h2, dif_pos h3]
    iterate 10 right
    exact .inl ⟨⟨a - 0x20, by omega⟩, by simp only; omega, e⟩
  have e : locateNat c a = if a < 0x10000 then .unmapped
      else if a < 0x20000 then if a - 0x10000 < c.gridSize then .grid (a - 0x10000) else .unmapped
      else if a - 0x20000 < c.fbSize then .fb (a - 0x20000) else .unmapped := by
    rw [locateNat, if_neg h1, dif_neg h2, dif_neg h3]
  by_cases h4 : a < 0x10000
  · rw [if_pos h4] at e
    iterate 13 right
    exact ⟨by omega, e⟩
  rw [if_neg h4] at e
  by_cases h5 : a < 0x20000
  · rw [if_pos h5] at e
    by_cases h6 : a - 0x10000 < c.gridSize
    · rw [if_pos h6] at e
      iterate 11 right
      exact .inl ⟨a - 0x10000, h6, by omega, h5, e⟩
    · rw [if_neg h6] at e
      iterate 13 right
      exact ⟨by omega, e⟩
  · rw [if_neg h5] at e
    by_cases h6 : a - 0x20000 < c.fbSize
    · rw [if_pos h6] at e
      iterate 12 right
      exact .inl ⟨a - 0x20000, h6, by omega, e⟩
    · rw [if_neg h6] at e
      iterate 13 right
      exact ⟨by omega, e⟩

/-! ### The meanings -/

/-- Everything RD can do. -/
theorem execRd_cases (addr : HostAddr) (s : State) :
    (∃ b, s.readLocation (locate s.cfg addr) = some b ∧ exec (.rd addr) s = .next (s.respond b)) ∨
      (s.readLocation (locate s.cfg addr) = none ∧ exec (.rd addr) s = .next (s.raise .badAddr)) := by
  simp only [exec, execRd]
  cases s.readLocation (locate s.cfg addr) <;> simp

/-- Everything WR can do. -/
theorem execWr_cases (addr : HostAddr) (d : Byte) (s : State) :
    (∃ t, s.writeLocation d (locate s.cfg addr) = some (.ok t) ∧ exec (.wr addr d) s = .next (t.respond 0x00#8)) ∨
      (∃ e, s.writeLocation d (locate s.cfg addr) = some (.error e) ∧ exec (.wr addr d) s = .next (s.raise e)) ∨
      (locate s.cfg addr = .cmd ∧ exec (.wr addr d) s = .refused .notAWriteInstruction) := by
  simp only [exec, execWr]
  cases h : locate s.cfg addr <;> simp [State.writeLocation]

/-- Where a write lands: the only states a successful WR can come from. -/
theorem writeLocation_ok {s t : State} {d : Byte} {l : Location} (h : s.writeLocation d l = some (.ok t)) :
    (l = .err ∧ t = s.clearErr) ∨ (∃ i, l = .sample i ∧ t = s.setSample i (d.extractLsb' 0 3)) ∨
      (∃ k, l = .frame k ∧ t = s.setFrameByte k d) ∨ (∃ k, l = .grid k ∧ t = s.writeGrid k [d]) := by
  cases l <;> simp_all [State.writeLocation]

/-- PACK always completes. -/
theorem execPack_next (s : State) :
    exec .pack s = .next ((s.setFrame (Vector.ofFn fun k => packByte s.sampleNat k.val)).respond 0x00#8) := rfl

/-- UNPACK always completes. -/
theorem execUnpack_next (s : State) :
    exec .unpack s = .next ((s.setSamples (Vector.ofFn fun i => unpackSample s.frameByte i.val)).respond 0x00#8) := rfl

/-- RASTER always completes. -/
theorem execRaster_next (s : State) :
    exec .raster s =
      .next ((s.writeGrid 0 (bytesOf s.cfg.gridSize (rasterByte s.cfg s.sampleNat))).respond 0x00#8) := rfl

/-- The state INIT answers. -/
def initialised (s : State) : State :=
  (((((s.emitted [.initSeq]).writeFb 0 (bytesOf s.cfg.fbSize fun _ => 0x00#8)).writeDc 0
    (bytesOf s.cfg.fbSize fun _ => 0x00#8)).setFfr true).setInitd true).respond 0x00#8

/-- Everything INIT can do. -/
theorem execInit_cases (s : State) :
    (s.sink.accepts (tokenCount (s.cfg.initSeq.map Burst.command)) = true ∧ exec .init s = .next (initialised s)) ∨
      (s.sink.accepts (tokenCount (s.cfg.initSeq.map Burst.command)) = false ∧ exec .init s = .fault .sinkStalled) := by
  have hb : [Emission.initSeq].flatMap (Emission.bursts s.cfg) = s.cfg.initSeq.map Burst.command := by
    simp [Emission.bursts]
  rcases emit_cases s [.initSeq] with ⟨h, e⟩ | ⟨h, e⟩ <;> rw [hb] at h
  · exact .inl ⟨h, by rw [exec, execInit, e]; rfl⟩
  · exact .inr ⟨h, by rw [exec, execInit, e]; rfl⟩

/-- The state RENDER answers once initialised. -/
def rendered (s : State) : State :=
  ((s.writeFb 0 (bytesOf s.cfg.fbSize (pageByte s.cfg s.gridByte))).markProgramFault
    (!Memory.filled s.grid s.cfg.gridSize)).respond 0x00#8

/-- Everything RENDER can do. -/
theorem execRender_cases (s : State) :
    (s.initd = false ∧ exec .render s = .next (s.raise .notInit)) ∨
      (s.initd = true ∧ exec .render s = .next (rendered s)) := by
  cases h : s.initd
  · exact .inl ⟨rfl, by simp [exec, execRender, h]⟩
  · exact .inr ⟨rfl, by simp [exec, execRender, h, rendered]⟩

/-- What a COMMIT emits. -/
def commitEmissions (s : State) : List Emission := s.sentPages.flatMap s.pageEmissions

/-- The state COMMIT answers once initialised. -/
def committed (s : State) : State :=
  ((s.sentPages.foldl State.cachePage (s.emitted (commitEmissions s))).setFfr false).respond 0x00#8

/-- Everything COMMIT can do. -/
theorem execCommit_cases (s : State) :
    (s.initd = false ∧ exec .commit s = .next (s.raise .notInit)) ∨
      (s.initd = true ∧
        s.sink.accepts (tokenCount ((commitEmissions s).flatMap (Emission.bursts s.cfg))) = true ∧
        exec .commit s = .next (committed s)) ∨
      (s.initd = true ∧
        s.sink.accepts (tokenCount ((commitEmissions s).flatMap (Emission.bursts s.cfg))) = false ∧
        exec .commit s = .fault .sinkStalled) := by
  cases h : s.initd
  · exact .inl ⟨rfl, by simp [exec, execCommit, h]⟩
  · rcases emit_cases s (commitEmissions s) with ⟨ha, e⟩ | ⟨ha, e⟩
    · exact .inr (.inl ⟨rfl, ha, by
        simp only [exec, execCommit, h, Bool.true_eq_false, if_false]
        rw [show s.sentPages.flatMap s.pageEmissions = commitEmissions s from rfl, e]
        rfl⟩)
    · exact .inr (.inr ⟨rfl, ha, by
        simp only [exec, execCommit, h, Bool.true_eq_false, if_false]
        rw [show s.sentPages.flatMap s.pageEmissions = commitEmissions s from rfl, e]
        rfl⟩)

/-- A sink that takes every token takes any number of them. -/
theorem accepts_of_room_none {d : Sink} (h : d.room = none) (n : Nat) : d.accepts n = true := by
  simp [Sink.accepts, h]

/-- INIT completes when the sink takes every token. -/
theorem execInit_next {s : State} (h : s.sink.room = none) : exec .init s = .next (initialised s) := by
  rcases execInit_cases s with ⟨-, e⟩ | ⟨h', -⟩
  · exact e
  · rw [accepts_of_room_none h] at h'; cases h'

/-- RENDER completes once initialised. -/
theorem execRender_next {s : State} (h : s.initd = true) : exec .render s = .next (rendered s) := by
  rcases execRender_cases s with ⟨h', -⟩ | ⟨-, e⟩
  · rw [h] at h'; cases h'
  · exact e

/-- COMMIT completes once initialised when the sink takes every token. -/
theorem execCommit_next {s : State} (hi : s.initd = true) (h : s.sink.room = none) :
    exec .commit s = .next (committed s) := by
  rcases execCommit_cases s with ⟨h', -⟩ | ⟨-, -, e⟩ | ⟨-, h', -⟩
  · rw [hi] at h'; cases h'
  · exact e
  · rw [accepts_of_room_none h] at h'; cases h'

/-- COMMIT's state, field by field: it touches `DC`, `FFR`, the display port and the responses. -/
theorem committed_eq (s : State) :
    ∃ m, committed s =
      { s with
        dc := m
        ffr := false
        trace := s.trace ++ (commitEmissions s).flatMap (Emission.bursts s.cfg)
        sink := (commitEmissions s).foldl (Sink.take s.cfg)
          (s.sink.spend (tokenCount ((commitEmissions s).flatMap (Emission.bursts s.cfg))))
        responses := s.responses ++ [{ rdata := 0x00#8, err := false }] } := by
  obtain ⟨m, hm⟩ := foldl_cachePage s.sentPages (s.emitted (commitEmissions s))
  exact ⟨m, by rw [committed, hm]; rfl⟩

/-- The cache after a COMMIT. -/
theorem committed_dcByte (s : State) (k : Nat) (hw : 1 ≤ s.cfg.width) :
    (committed s).dcByte k = if k / s.cfg.width ∈ s.sentPages then s.fbByte k else s.dcByte k :=
  dcByte_foldl_cachePage s.sentPages (s.emitted (commitEmissions s)) k hw

/-- The sink's memory after a COMMIT. -/
theorem committed_devByte (s : State) (k : Nat) (hw : 1 ≤ s.cfg.width) (hn : 1 ≤ s.cfg.chunkMax) :
    (committed s).sink.devByte k = if k / s.cfg.width ∈ s.sentPages then s.fbByte k else s.sink.devByte k := by
  obtain ⟨m, hm⟩ := committed_eq s
  rw [hm]
  exact devByte_take_pages s s.sentPages _ k hw hn

theorem mem_sentPages {s : State} {p : Nat} : p ∈ s.sentPages ↔ p < s.cfg.pages ∧ s.pageSent p = true := by
  simp [State.sentPages]

/-! ### One event -/

/-- Everything the decoder can make of a word. -/
theorem performWord_cases (w : HostWord) (s : State) :
    (∃ i, decode w = .ok i ∧ performWord w s = exec i s) ∨
      (∃ op, decode w = .error (.illegalCommand op) ∧ performWord w s = .next (s.raise .illegalCmd)) := by
  unfold performWord
  cases h : decode w with
  | ok i => exact .inl ⟨i, rfl, rfl⟩
  | error e => cases e with | illegalCommand op => exact .inr ⟨op, rfl, rfl⟩

end Sys2Proof.Machine
end

