-- ==== Sys2Proof/Laws/PerInstr.lean ====
section
/-! SUPPORT. A law of every instruction as syntax: what its word's `we` and `addr` fields say it is (30_encoding.md R73). -/

namespace Sys2Proof.Laws

/-- A read has `we = 0` and its address; a write has `we = 1` and an address that is not `CMD`; a command has `we = 1` and
the address of `CMD`. -/
def WordKind.Statement : Instr → Prop
  | .rd addr => weField (encode (.rd addr)) = false ∧ addrField (encode (.rd addr)) = addr
  | .wr addr d =>
    (Instr.wr addr d).wellFormed = true →
      weField (encode (.wr addr d)) = true ∧ addrField (encode (.wr addr d)) = addr ∧ addr ≠ 0x00000#18
  | .pack => weField (encode .pack) = true ∧ addrField (encode .pack) = 0x00000#18
  | .unpack => weField (encode .unpack) = true ∧ addrField (encode .unpack) = 0x00000#18
  | .raster => weField (encode .raster) = true ∧ addrField (encode .raster) = 0x00000#18
  | .init => weField (encode .init) = true ∧ addrField (encode .init) = 0x00000#18
  | .render => weField (encode .render) = true ∧ addrField (encode .render) = 0x00000#18
  | .commit => weField (encode .commit) = true ∧ addrField (encode .commit) = 0x00000#18

theorem WordKind.rd (addr : HostAddr) : WordKind.Statement (.rd addr) :=
  ⟨weField_wordOf .., addrField_wordOf ..⟩

theorem WordKind.wr (addr : HostAddr) (wdata : Byte) : WordKind.Statement (.wr addr wdata) := fun h =>
  ⟨weField_wordOf .., addrField_wordOf .., by simpa [Instr.wellFormed] using h⟩

theorem WordKind.pack : WordKind.Statement .pack := ⟨weField_wordOf .., addrField_wordOf ..⟩

theorem WordKind.unpack : WordKind.Statement .unpack := ⟨weField_wordOf .., addrField_wordOf ..⟩

theorem WordKind.raster : WordKind.Statement .raster := ⟨weField_wordOf .., addrField_wordOf ..⟩

theorem WordKind.init : WordKind.Statement .init := ⟨weField_wordOf .., addrField_wordOf ..⟩

theorem WordKind.render : WordKind.Statement .render := ⟨weField_wordOf .., addrField_wordOf ..⟩

theorem WordKind.commit : WordKind.Statement .commit := ⟨weField_wordOf .., addrField_wordOf ..⟩

end Sys2Proof.Laws
end

