-- ==== Sys2Proof/Tests/Slice0.lean ====
section
/-! SUPPORT. The model's own tests. Expected results are those of 95_test_vectors.md (named in each comment) or of the words
of the rules; every test is about one decoding or one step. -/

namespace Sys2Proof.Tests

open Sys2Proof Sys2Proof.Machine

/-- One field of a next state. -/
def seen {α : Type} (o : Host.Outcome State Fault Refusal) (field : State → α) : Option α :=
  match o with
  | .next t => some (field t)
  | .fault _ => none
  | .refused _ => none

/-- A *Small* machine after INIT, with given memories. -/
def ready (grid fb dc : List Byte) : State :=
  { State.reset with
    grid := Memory.cellsFrom 0 grid
    fb := Memory.cellsFrom 0 fb
    dc := Memory.cellsFrom 0 dc
    initd := true }

/-- The grid S1 of 95_test_vectors.md. -/
def gridS1 : List Byte := [0, 0, 1, 1, 0, 0, 1, 1, 0, 0, 1, 1, 0, 1, 1, 1]

/-- The framebuffer of Q2. -/
def fbQ2 : List Byte := [0, 0, 0, 0, 0xFF, 0xFF, 0xFF, 0xFF, 0, 0, 0xF0, 0xF0, 0xFF, 0xFF, 0xFF, 0xFF]

/-- The framebuffer of M3. -/
def fbM3 : List Byte := [0, 0, 0, 0, 0xFF, 0xFF, 0xFF, 0xFF, 0, 0, 0xFF, 0xFF, 0xFF, 0xFF, 0xFF, 0xFF]

def zeros : List Byte := List.replicate 16 0x00#8

/-- The bytes of `FB`, of `DC`, of `GRID` and of the reference sink's `DEV` that were written. -/
def bytesIn (m : Memory) : List Byte := m.map Prod.snd

/-! ### Well-formedness: each check refuses an ill-formed term -/

theorem test_wellFormed_refuses_wr_cmd : (Instr.wr 0x00000#18 0x01#8).wellFormed = false := by decide
theorem test_wellFormed_accepts_wr_status : (Instr.wr 0x00001#18 0x00#8).wellFormed = true := by decide
theorem test_config_small_wf : Config.small.wf = true := by decide
theorem test_config_panel_wf : Config.panel.wf = true := by decide
theorem test_config_refuses_cols_0 : { Config.small with cols := 0 }.wf = false := by decide
theorem test_config_refuses_rows_256 : { Config.small with rows := 256 }.wf = false := by decide
theorem test_config_refuses_width_0 : { Config.small with width := 0 }.wf = false := by decide
theorem test_config_refuses_height_12 : { Config.small with height := 12 }.wf = false := by decide
theorem test_config_refuses_chunk_0 : { Config.small with chunkMax := 0 }.wf = false := by decide
theorem test_config_refuses_missing_page_select : { Config.small with pageSel := [[0xB0#8]] }.wf = false := by decide
theorem test_config_refuses_empty_page_select : { Config.small with pageSel := [[0xB0#8], []] }.wf = false := by decide

/-! ### Decoding: words written out bit by bit from 30_encoding.md R71 and R74 -/

/-- `we = 0`, `addr = 0x00001`, `wdata = 0x00`. -/
theorem test_decode_rd : decode 0b0_000000000000000001_00000000#27 = .ok (.rd 0x00001#18) := by decide
/-- H17: the `wdata` field of a read is ignored. -/
theorem test_decode_rd_ignores_wdata : decode 0x00010AB#27 = .ok (.rd 0x00010#18) := by decide
/-- "`0000006` is `RD CMD` with an ignored data field, not COMMIT". -/
theorem test_decode_rd_cmd : decode 0x0000006#27 = .ok (.rd 0x00000#18) := by decide
/-- `we = 1`, `addr = 0x1000F`, `wdata = 0x80` (H7). -/
theorem test_decode_wr : decode 0b1_010000000000001111_10000000#27 = .ok (.wr 0x1000F#18 0x80#8) := by decide
theorem test_decode_pack : decode 0b1_000000000000000000_00000001#27 = .ok .pack := by decide
theorem test_decode_unpack : decode 0b1_000000000000000000_00000010#27 = .ok .unpack := by decide
theorem test_decode_raster : decode 0b1_000000000000000000_00000011#27 = .ok .raster := by decide
theorem test_decode_init : decode 0b1_000000000000000000_00000100#27 = .ok .init := by decide
theorem test_decode_render : decode 0b1_000000000000000000_00000101#27 = .ok .render := by decide
theorem test_decode_commit : decode 0b1_000000000000000000_00000110#27 = .ok .commit := by decide
/-- H13. -/
theorem test_decode_illegal_00 : decode 0x4000000#27 = .error (.illegalCommand 0x00#8) := by decide
theorem test_decode_illegal_FF : decode 0x40000FF#27 = .error (.illegalCommand 0xFF#8) := by decide
/-- H5. -/
theorem test_encode_wr : encode (.wr 0x00017#18 0x0D#8) = 0x400170D#27 := by decide
theorem test_tableWord_commit : decodeTableWord 32 0x4000006 = some .commit := by decide
/-- A number with bit 27 set is no host word (30_encoding.md R70). -/
theorem test_tableWord_refuses_bit_27 : decodeTableWord 32 0x8000001 = none := by decide

/-! ### Host access -/

/-- H1: `RD STATUS` after reset. -/
theorem test_rd_status :
    seen (step (State.reset.withFetchWord 27 0x0000100)) State.responses = some [⟨0x02#8, false⟩] := by decide
/-- H2: `RD HEIGHT`. -/
theorem test_rd_height : seen (exec (.rd 0x00007#18) State.reset) State.responses = some [⟨0x10#8, false⟩] := by decide
/-- H5: `WR V7, 0x0D` stores 5. -/
theorem test_wr_masks_sample : seen (exec (.wr 0x00017#18 0x0D#8) State.reset) (fun t => t.v[7]) = some 5#3 := by decide
/-- H7, and the same byte written twice. -/
theorem test_wr_grid :
    seen (exec (.wr 0x1000F#18 0x80#8) { State.reset with grid := [(15, 0x01#8)] }) State.grid = some [(15, 0x80#8)] := by
  decide
/-- H8: the first unmapped grid address. -/
theorem test_rd_bad_addr :
    seen (exec (.rd 0x10010#18) State.reset) (fun t => (t.err, t.responses)) = some (0x03#8, [⟨0x00#8, true⟩]) := by decide
/-- H11: `WR FB+0` is read-only. -/
theorem test_wr_read_only :
    seen (exec (.wr 0x20000#18 0xFF#8) State.reset) (fun t => (t.err, t.fb)) = some (0x04#8, []) := by decide
/-- H15: the first error is kept. -/
theorem test_first_error_kept : seen (exec .render { State.reset with err := 0x01#8 }) State.err = some 0x01#8 := by decide
/-- H16: any write to `ERR` clears it. -/
theorem test_wr_err_clears :
    seen (exec (.wr 0x00002#18 0x77#8) { State.reset with err := 0x01#8 }) State.err = some 0x00#8 := by decide
/-- H13: an illegal command, as a step. -/
theorem test_step_illegal_command : seen (step (State.reset.withFetchWord 27 0x4000007)) State.err = some 0x01#8 := by decide

/-! ### Band Codec -/

/-- K6. -/
theorem test_pack :
    seen (exec .pack { State.reset with v := #v[3, 1, 4, 1, 5, 2, 6, 5, 3, 5, 0, 7, 2, 3, 6, 4] }) (fun t => t.f.toList) =
      some [0x0B#8, 0x53#8, 0xB9#8, 0x2B#8, 0xAE#8, 0x99#8] := by decide +kernel
/-- K16 on the function: 0x0A packs as 2 in sample 2. -/
theorem test_pack_masks : packByte (fun i => if i = 2 then 0x0A else 0) 0 = 0x80#8 := by decide
/-- K10. -/
theorem test_unpack :
    seen (exec .unpack { State.reset with f := #v[0xDE, 0xAD, 0xBE, 0xEF, 0x01, 0x23] }) (fun t => t.v.toList) =
      some [6, 3, 7, 6, 2, 5, 7, 5, 7, 5, 7, 0, 0, 6, 0, 1] := by decide +kernel
/-- K12c. -/
theorem test_unpack_straddle :
    seen (exec .unpack { State.reset with f := #v[0, 1, 0, 0, 0, 0] }) (fun t => t.v[2]) = some 4#3 := by decide +kernel

/-! ### Rasterizer -/

/-- S1. -/
theorem test_raster :
    seen (exec .raster { State.reset with v := #v[0, 1, 4, 7, 5, 5, 5, 5, 5, 5, 5, 5, 5, 5, 5, 5] })
      (fun t => bytesIn t.grid) = some gridS1 := by decide +kernel
/-- S6: every byte is rewritten. -/
theorem test_raster_rewrites :
    seen (exec .raster (ready (List.replicate 16 0xFF#8) [] [])) (fun t => bytesIn t.grid) = some zeros := by decide +kernel

/-! ### INIT and RENDER -/

/-- Q1. -/
theorem test_init_emits :
    seen (exec .init State.reset) (fun t => (t.trace, t.ffr, t.initd, bytesIn t.fb, bytesIn t.dc)) =
      some ([.command 0xAE#8, .command 0xAF#8], true, true, zeros, zeros) := by decide +kernel
/-- A sink that takes one token only never lets INIT finish (70_reset_and_hazards.md R181). -/
theorem test_init_hangs :
    exec .init { State.reset with sink := { Sink.start with room := some 1 } } = .fault .sinkStalled := by
  unfold exec execInit State.emit
  rw [if_neg (by decide)]
  rfl
/-- Q2. -/
theorem test_render : seen (exec .render (ready gridS1 zeros zeros)) (fun t => bytesIn t.fb) = some fbQ2 := by decide +kernel
/-- Q10, with 2 by 2 cells on one page: any non-zero byte is a set cell. -/
theorem test_page_bit_order :
    bytesOf 4 (pageByte { Config.small with cols := 2, rows := 2, width := 4, height := 8 }
      fun k => [0x01#8, 0x02#8, 0x00#8, 0xFF#8].getD k 0x00#8) = [0x0F#8, 0x0F#8, 0xFF#8, 0xFF#8] := by decide +kernel
/-- Q4: blocks that cross pages. -/
theorem test_page_crosses :
    bytesOf 8 (fun k => pageByte { Config.small with height := 24 } (fun j => gridS1.getD j 0x00#8) (16 + k)) =
      [0x00#8, 0x00#8, 0xFC#8, 0xFC#8, 0xFF#8, 0xFF#8, 0xFF#8, 0xFF#8] := by decide +kernel
/-- 70_reset_and_hazards.md R176: RENDER over a byte nothing has written runs, and marks the run. -/
theorem test_render_unwritten : seen (exec .render (ready [] zeros zeros)) State.programFault = some true := by decide +kernel

/-! ### COMMIT -/

/-- M1. -/
theorem test_commit_forced :
    seen (exec .commit (ready gridS1 fbQ2 zeros)) (fun t => (t.trace, t.ffr, t.dc == t.fb, t.sink.dev == t.fb)) =
      some ([.command 0xB0#8, .data [0, 0, 0, 0], .data [0xFF, 0xFF, 0xFF, 0xFF],
        .command 0xB1#8, .data [0, 0, 0xF0, 0xF0], .data [0xFF, 0xFF, 0xFF, 0xFF]], false, true, true) := by decide +kernel
/-- M3: only page 1 differs. -/
theorem test_commit_dirty :
    seen (exec .commit { ready gridS1 fbM3 fbQ2 with ffr := false }) State.trace =
      some [.command 0xB1#8, .data [0, 0, 0xFF, 0xFF], .data [0xFF, 0xFF, 0xFF, 0xFF]] := by decide +kernel
/-- M7: the last chunk is short. -/
theorem test_chunks : chunks 4 (List.replicate 10 0x00#8) =
    [List.replicate 4 0x00#8, List.replicate 4 0x00#8, List.replicate 2 0x00#8] := by decide

/-! ### Every row runs as the first instruction after reset -/

theorem test_rows_run_after_reset :
    ([0x0000000, 0x4000100, 0x4000001, 0x4000002, 0x4000003, 0x4000004, 0x4000005, 0x4000006].map fun w =>
      (seen (step (State.reset.withFetchWord 32 w)) fun t => t.responses.length)) = List.replicate 8 (some 1) := by
  decide +kernel

/-! ### Witnesses: for every statement with hypotheses, a state and operands that meet all of them together -/

/-- An initialised *Small* machine that shows its framebuffer: `DEV = DC = FB`, nothing forced. -/
def shown : State :=
  { ready gridS1 fbQ2 fbQ2 with ffr := false, sink := { Sink.start with dev := Memory.cellsFrom 0 fbQ2 } }

/-- An initialised *Small* machine whose sink takes `n` more tokens. -/
def stalled (n : Nat) : State := { ready gridS1 fbQ2 zeros with sink := { Sink.start with room := some n } }

/-- The edges of every unmapped range of the *Small* map. -/
def unmappedEdges : List Nat := [0x3, 0xA, 0xF, 0x26, 0xFFFF, 0x10010, 0x1FFFF, 0x20010, 0x3FFFF]

/-- The edges of every read-only range of the *Small* map. -/
def readOnlyEdges : List Nat := [0x1, 0x4, 0x9, 0x20000, 0x2000F]

/-- The edges of every other range of the *Small* map. -/
def otherEdges : List Nat := [0x0, 0x2, 0x10, 0x1F, 0x20, 0x25, 0x10000, 0x1000F]

theorem witness_DecodeEncodeRoundTrip :
    (Instr.wr 0x3FFFF#18 0xFF#8).wellFormed = true ∧ (Instr.rd 0x00000#18).wellFormed = true := by decide

theorem witness_EncodeDecodeCanonicalWord :
    decode 0x00010AB#27 = .ok (.rd 0x00010#18) ∧ weField 0x00010AB#27 = false ∧ weField 0x4001009#27 = true := by decide

theorem witness_DecodingTakesTheMostSpecificRow :
    (0x3FFFFFF#27).toNat / 2 ^ 26 = 0 ∧
    ((0x4000100#27).toNat / 2 ^ 26 = 1 ∧ (0x4000100#27).toNat / 2 ^ 8 % 2 ^ 18 ≠ 0) ∧
    ((0x40000FF#27).toNat / 2 ^ 26 = 1 ∧ (0x40000FF#27).toNat / 2 ^ 8 % 2 ^ 18 = 0) ∧
    (opcodeRows.filter fun r => r.covers 0x4000001#27).map OpcodeRow.mnemonic = ["WR", "PACK"] := by decide

theorem witness_StepRunsTheDecodedInstruction :
    State.reset.cfg.wf = true ∧ (State.reset.withFetchWord 27 0x4000001).pending = [.request 0x4000001#27] ∧
      decode 0x4000001#27 = .ok .pack := by decide

theorem witness_StepOnEveryOtherInput :
    (State.reset.cfg.wf = true ∧ State.reset.pending = []) ∧ decode 0x4000007#27 = .error (.illegalCommand 0x07#8) ∧
      (State.withPending State.reset [.reset]).pending = [.reset] ∧
      (State.withPending State.reset [.resetDuring 0x4000006#27]).pending = [.resetDuring 0x4000006#27] ∧
      decode 0x4000006#27 = .ok .commit ∧ (decode 0x4000005#27 ≠ .ok .init ∧ decode 0x4000005#27 ≠ .ok .commit) ∧
      (State.resetWith { Config.small with cols := 0 }).cfg.wf = false := by decide

theorem witness_ResetLeavesTheStatedValues :
    (∃ c, State.reset = State.resetWith c) ∧ ∃ u : State, shown.applyReset = u.applyReset := ⟨⟨_, rfl⟩, ⟨_, rfl⟩⟩

theorem witness_OnlyResetClearsInitd :
    ∃ t, performEvent .reset { shown with err := 0x02#8 } = .next t ∧ shown.initd = true ∧ t.initd = false ∧
      t.err = 0x00#8 := ⟨_, rfl, rfl, rfl, rfl⟩

/-- The clause about `ERR` met by a transaction, not a reset. -/
theorem witness_OnlyResetClearsInitd_err :
    ∃ t, performEvent (.request 0x4000200#27) { shown with err := 0x02#8 } = .next t ∧ t.err = 0x00#8 := ⟨_, rfl, rfl⟩

theorem witness_ResetInsideACommand :
    decode 0x4000004#27 = .ok .init ∧ decode 0x4000006#27 = .ok .commit ∧ decode 0x4000001#27 ≠ .ok .init ∧
      decode 0x4000001#27 ≠ .ok .commit := by decide

theorem witness_ReadAnswersByAddress :
    State.reset.cfg.wf = true ∧ (∀ a ∈ unmappedEdges, Unmapped Config.small a) ∧
      (∀ a ∈ readOnlyEdges ++ otherEdges, ¬ Unmapped Config.small a) ∧ 15 < Config.small.gridSize ∧
      15 < Config.small.fbSize := by decide

theorem witness_WriteStoresByAddress :
    (∀ a ∈ readOnlyEdges, ReadOnly Config.small a ∧ ¬ Unmapped Config.small a) ∧
      (∀ a ∈ unmappedEdges ++ otherEdges, ¬ ReadOnly Config.small a) ∧ (0x3FFFF#18).toNat ≠ 0x0 := by decide

theorem witness_RepeatedAccessIsIdempotent :
    (∃ t u, ¬ Unmapped shown.cfg (0x2000F#18).toNat ∧ exec (.rd 0x2000F#18) shown = .next t ∧
      exec (.rd 0x2000F#18) t = .next u) ∧
    ∃ t u, exec (.wr 0x00010#18 0x0F#8) shown = .next t ∧ exec (.wr 0x00010#18 0x0F#8) t = .next u :=
  ⟨⟨_, _, by decide, rfl, rfl⟩, ⟨_, _, rfl, rfl⟩⟩

theorem witness_IllegalCommandsOnlyRaise :
    (∀ op ∈ [0x00#8, 0x07#8, 0xFF#8], op.toNat = 0x00 ∨ 0x07 ≤ op.toNat) ∧
      ∀ op ∈ [0x01#8, 0x06#8], 0x01 ≤ op.toNat ∧ op.toNat ≤ 0x06 := by decide

theorem witness_DisplayCommandsNeedInit :
    State.reset.initd = false ∧ State.reset.sink.accepts State.reset.cfg.initSeq.length = true ∧ ¬ Unmapped State.reset.cfg (0x1000F#18).toNat ∧
      ¬ ReadOnly State.reset.cfg (0x1000F#18).toNat ∧ (0x1000F#18).toNat ≠ 0 := by decide

theorem witness_ErrorsExactlyAsListed :
    (∃ t, performWord 0x4000006#27 State.reset = .next t) ∧ ErrorCode.notInit.condition 0x4000006#27 State.reset ∧
      (∃ t, performWord 0x4000001#27 State.reset = .next t) ∧ ErrorCode.illegalCmd.condition 0x4000007#27 State.reset ∧
      ErrorCode.badAddr.condition 0x0000300#27 shown ∧ ErrorCode.badAddr.condition 0x5001000#27 shown ∧
      ErrorCode.roWrite.condition 0x4000100#27 shown ∧ ErrorCode.roWrite.condition 0x6000F00#27 shown := by
  refine ⟨⟨_, rfl⟩, ?_, ⟨_, rfl⟩, ?_, ?_, ?_, ?_, ?_⟩ <;> simp only [ErrorCode.condition] <;> decide

theorem witness_NothingDependsOnTheErrorLatch :
    (∃ t, exec .pack State.reset = .next t) ∧ exec .init (stalled 1) = .fault .sinkStalled ∧
      exec (.wr 0x00000#18 0x00#8) State.reset = .refused .notAWriteInstruction ∧ Instr.pack ≠ .rd 0x00001#18 ∧
      Instr.pack ≠ .rd 0x00002#18 := by
  refine ⟨⟨_, rfl⟩, ?_, rfl, by decide, by decide⟩
  rcases execInit_cases (stalled 1) with ⟨h, -⟩ | ⟨-, e⟩
  · exact absurd h (by decide)
  · exact e

theorem witness_UnpackReadsTheFields :
    3 * 0 % 8 ≤ 5 ∧ 3 * 15 % 8 ≤ 5 ∧ 3 * 2 % 8 = 6 ∧ 3 * 10 % 8 = 6 ∧ 3 * 5 % 8 = 7 ∧ 3 * 13 % 8 = 7 := by decide

theorem witness_FrameByteLayout : ∀ i : Nat, (fun _ => 7 : Nat → Nat) i ≤ 7 := fun _ => Nat.le_refl 7

theorem witness_UnpackInvertsPack :
    ∀ i, i < 16 → (fun _ => 7 : Nat → Nat) i ≤ 7 ∧ (fun _ => 1 : Nat → Nat) i = (fun _ => 9 : Nat → Nat) i % 8 := by decide

/-- Two different frames and two different vectors that agree on what sample 15, and byte 5, depend on. -/
theorem witness_CodecLanesAreIndependent :
    (let b : Nat → Byte := fun k => if k = 0 then 0xFF#8 else 0x00#8
     b (3 * 15 / 8) = 0x00#8 ∧ b ((3 * 15 + 2) / 8) = 0x00#8 ∧ b 0 ≠ 0x00#8) ∧
    ∀ i, i < 16 → 3 * i < 8 * 5 + 8 → 8 * 5 ≤ 3 * i + 2 → (fun i => if i = 0 then 1 else 0 : Nat → Nat) i % 8 = 0 := by
  decide

theorem witness_PackIsTheBitstream : 0 < 6 ∧ 5 < 6 ∧ 15 < 16 ∧ 2 < 3 := by decide

theorem witness_PackInvertsUnpack :
    packByte (fun i => ((#v[0, 0, 2, 0, 0, 0, 0, 0, 0, 0, 0, 0, 0, 0, 0, 0] : Vector Sample 16).getD i 0#3).toNat) 0 =
      0x80#8 := by decide

theorem witness_RasterLoopIsTheClosedForm : 3 < Config.small.cols ∧ 3 < Config.small.rows := by decide

theorem witness_RasterDrawsTheBars :
    3 < State.reset.cfg.cols ∧ 3 < State.reset.cfg.rows ∧ State.reset.cfg.gridSize ≤ 16 := by decide

theorem witness_BarHeights :
    rasterCell Config.small (fun _ => 1) 15 3 ≠ 0x00#8 ∧
      (fun _ => 1 : Nat → Nat) 15 ≤ (fun _ => 7 : Nat → Nat) 15 := by decide

theorem witness_InitStartsTheDisplay :
    State.reset.sink.accepts State.reset.cfg.initSeq.length = true ∧
      (stalled 2).sink.accepts (stalled 2).cfg.initSeq.length = true := by decide

theorem witness_StalledSinkHangs :
    (stalled 1).sink.accepts (stalled 1).cfg.initSeq.length = false ∧
      ((stalled 17).initd = true ∧ (stalled 17).sink.accepts (tokenCount (((stalled 17).sentPages.flatMap
        (stalled 17).pageEmissions).flatMap (Emission.bursts (stalled 17).cfg))) = false) ∧
      ∃ r, exec .init (stalled 1) = .fault r := by
  refine ⟨by decide, ⟨rfl, by decide +kernel⟩, ⟨_, witness_NothingDependsOnTheErrorLatch.2.1⟩⟩

theorem witness_PageLoopIsTheClosedForm :
    Config.small.wf = true ∧ Config.panel.wf = true ∧ 7 < Config.small.width ∧ 15 < Config.small.height := by decide

theorem witness_RenderDrawsTheGrid :
    State.reset.cfg.wf = true ∧ State.reset.initd = false ∧ shown.cfg.wf = true ∧ shown.initd = true ∧
      7 < shown.cfg.width ∧ 15 < shown.cfg.height ∧ shown.cfg.fbSize ≤ 16 := by decide

theorem witness_RenderMarksUnwrittenCells :
    (∃ t, shown.initd = true ∧ exec .render shown = .next t) ∧
      ∃ t, performEvent .reset { shown with programFault := true } = .next t :=
  ⟨⟨_, rfl, execRender_next rfl⟩, ⟨_, rfl⟩⟩

/-- Two machines of the same grid and different framebuffers. -/
theorem witness_RenderDependsOnGridAlone :
    ∃ t t', shown.initd = true ∧ (ready gridS1 zeros zeros).initd = true ∧ shown.cfg = (ready gridS1 zeros zeros).cfg ∧
      (∀ k, k < shown.cfg.gridSize → shown.gridByte k = (ready gridS1 zeros zeros).gridByte k) ∧
      exec .render shown = .next t ∧ exec .render (ready gridS1 zeros zeros) = .next t' :=
  ⟨_, _, rfl, rfl, rfl, fun _ _ => rfl, execRender_next rfl, execRender_next rfl⟩

theorem witness_CellsCanBeReadOffThePage :
    Config.small.wf = true ∧ 1 ≤ Config.small.bw ∧ 1 ≤ Config.small.bh ∧ 3 < Config.small.cols ∧ 3 < Config.small.rows := by
  decide

/-- A scale below one pixel, and a device with a margin on the right and one at the bottom. -/
theorem witness_MarginsStayDark :
    (let c := { Config.small with cols := 9 }; c.wf = true ∧ c.bw = 0 ∧ 0 < c.fbSize) ∧
    (let c := { Config.small with width := 9, rows := 3 }
     c.wf = true ∧ (8 < c.width ∧ c.cols * c.bw ≤ 8) ∧ (15 < c.height ∧ c.rows * c.bh ≤ 15)) := by decide

theorem witness_CommitIsTheWrittenLoop :
    State.reset.cfg.wf = true ∧ State.reset.initd = false ∧ shown.cfg.wf = true ∧ shown.initd = true ∧
      shown.sink.accepts (tokenCount (shown.commitLoop.trace.drop shown.trace.length)) = true := by
  refine ⟨by decide, rfl, by decide, rfl, accepts_of_room_none rfl _⟩

/-- A forced page, a page that differs, and one that does not. -/
theorem witness_CommitSendsForcedAndDirtyPages :
    (ready gridS1 fbQ2 zeros).cfg.wf = true ∧ (ready gridS1 fbQ2 zeros).initd = true ∧
      (∀ bursts, (ready gridS1 fbQ2 zeros).sink.accepts (tokenCount bursts) = true) ∧
      (ready gridS1 fbQ2 fbQ2).sentPages = [0, 1] ∧
      State.sentPages { ready gridS1 fbM3 fbQ2 with ffr := false } = [1] := by
  refine ⟨by decide, rfl, fun _ => accepts_of_room_none rfl _, by decide +kernel, by decide +kernel⟩

theorem witness_CommitMakesTheCacheEqual :
    ∃ t, shown.cfg.wf = true ∧ shown.initd = true ∧ exec .commit shown = .next t :=
  ⟨_, by decide, rfl, execCommit_next rfl rfl⟩

theorem witness_CommitTrafficIsBounded :
    ∃ t, shown.cfg.wf = true ∧ shown.initd = true ∧ shown.ffr = false ∧
      (∀ p, p < shown.cfg.pages → (shown.cfg.pageSelect p).length = 1) ∧ exec .commit shown = .next t :=
  ⟨_, by decide, rfl, rfl, by decide, execCommit_next rfl rfl⟩

theorem witness_SecondShowEmitsNothing :
    ∃ t, shown.cfg.wf = true ∧ shown.initd = true ∧ execAll Pseudo.SHOW.expand shown = .next t := by
  refine ⟨committed (rendered shown), by decide, rfl, ?_⟩
  simp only [Pseudo.expand, execAll]
  rw [execRender_next rfl]
  simp only [andThen]
  rw [execCommit_next rfl rfl]

theorem witness_FirstCommitAfterInitSendsEveryPage :
    ∃ a b t, State.reset.cfg.wf = true ∧ exec .init State.reset = .next a ∧ Instr.commit ∉ [Instr.render] ∧
      execAll [.render] a = .next b ∧ exec .commit b = .next t := by
  refine ⟨initialised State.reset, rendered (initialised State.reset), _, by decide, execInit_next rfl, by decide, ?_,
    execCommit_next rfl rfl⟩
  simp only [execAll]
  rw [execRender_next rfl]
  rfl

theorem witness_BurstsAreBounded :
    (∃ t, State.reset.cfg.wf = true ∧ exec .init State.reset = .next t) ∧ ∃ t, exec .commit shown = .next t :=
  ⟨⟨_, by decide, execInit_next rfl⟩, ⟨_, execCommit_next rfl rfl⟩⟩

theorem witness_BurstTokensAreMarked :
    (Burst.data [0x00#8, 0xFF#8]).tokens[1]? = some ⟨true, 0xFF#8, true⟩ ∧
      (Burst.data [0x00#8, 0xFF#8]).tokens[0]? = some ⟨true, 0x00#8, false⟩ := by decide

/-- Every instruction answers a next state somewhere. -/
theorem witness_AccessMatrix :
    ∀ i ∈ [Instr.rd 0x00001#18, .wr 0x0001F#18 0xFF#8, .wr 0x00025#18 0xFF#8, .wr 0x1000F#18 0xFF#8, .wr 0x00002#18 0x00#8,
      .pack, .unpack, .raster, .init, .render, .commit], ∃ t, exec i shown = .next t := by
  intro i hi
  simp only [List.mem_cons, List.not_mem_nil, or_false] at hi
  rcases hi with rfl | rfl | rfl | rfl | rfl | rfl | rfl | rfl | rfl | rfl | rfl
  · exact ⟨_, rfl⟩
  · exact ⟨_, rfl⟩
  · exact ⟨_, rfl⟩
  · exact ⟨_, rfl⟩
  · exact ⟨_, rfl⟩
  · exact ⟨_, execPack_next _⟩
  · exact ⟨_, execUnpack_next _⟩
  · exact ⟨_, execRaster_next _⟩
  · exact ⟨_, execInit_next rfl⟩
  · exact ⟨_, execRender_next rfl⟩
  · exact ⟨_, execCommit_next rfl rfl⟩

theorem witness_CacheIsHidden :
    Instr.init ≠ .commit ∧ (∃ t, exec .init shown = .next t) ∧ exec .init (stalled 1) = .fault .sinkStalled ∧
      exec (.wr 0x00000#18 0x00#8) shown = .refused .notAWriteInstruction :=
  ⟨by decide, ⟨_, execInit_next rfl⟩, witness_NothingDependsOnTheErrorLatch.2.1, rfl⟩

/-- The invariant holds of an initialised machine with all memories written. -/
theorem witness_inv : shown.Inv where
  gridCanonical := by decide
  fbCanonical := by decide
  dcCanonical := by decide
  devCanonical := by decide
  gridBounded := by decide
  fbBounded := by decide
  dcBounded := by decide
  errLegal := by decide
  uninitialisedForces := by decide
  initialisedFilled := by decide +kernel

theorem witness_StatusValues : shown.Inv := witness_inv

theorem witness_DerivedConstants :
    (let c : Config := ⟨255, 255, 255, 248, 255, [], List.replicate 31 [0xB0#8]⟩; c.wf = true) := by decide

theorem witness_ResetMeetsTheInvariants : Memory.wf shown.sink.dev = true := by decide

theorem witness_StepKeepsTheInvariant : shown.Inv ∧ ∃ t, step (shown.withFetchWord 27 0x4000006) = .next t := by
  refine ⟨witness_inv, committed { shown with pending := [] }, ?_⟩
  show exec .commit { shown with pending := [] } = _
  exact execCommit_next rfl rfl

theorem witness_StepKeepsTheDisplayConsistent :
    shown.DisplayConsistent ∧ shown.initd = true ∧ shown.ffr = false ∧
      ∃ t, step (shown.withFetchWord 27 0x4000005) = .next t := by
  refine ⟨fun _ _ => by decide +kernel, rfl, rfl, rendered { shown with pending := [] }, ?_⟩
  show exec .render { shown with pending := [] } = _
  exact execRender_next rfl

theorem witness_CommitShowsTheFramebuffer :
    ∃ t, shown.cfg.wf = true ∧ shown.DisplayConsistent ∧ shown.initd = true ∧ exec .commit shown = .next t :=
  ⟨_, by decide, witness_StepKeepsTheDisplayConsistent.1, rfl, execCommit_next rfl rfl⟩

theorem witness_TickShowsTheFrame : shown.cfg.wf = true ∧ shown.initd = true ∧ shown.sink.room = none := by decide

theorem witness_RunFoldsTheTransactions : State.reset.cfg.wf = true := by decide

end Sys2Proof.Tests
end

section
/-! The bounds of a configuration and the constants derived from it (00_scope.md R10 to R12). -/

namespace Sys2Proof

/-- The bounds of 00_scope.md R10 and R12. -/
theorem Config.wf_iff (c : Config) :
    c.wf = true ↔
      ((1 ≤ c.cols ∧ c.cols ≤ 255) ∧ (1 ≤ c.rows ∧ c.rows ≤ 255) ∧ (1 ≤ c.width ∧ c.width ≤ 255) ∧
        (8 ≤ c.height ∧ c.height ≤ 248 ∧ c.height % 8 = 0)) ∧
      (1 ≤ c.chunkMax ∧ c.chunkMax ≤ 255) ∧ c.pageSel.length = c.pages ∧ ∀ bytes ∈ c.pageSel, bytes ≠ [] := by
  simp [Config.wf, Config.geometryOk, Config.portOk, Config.pages, and_assoc]

variable {c : Config}

theorem Config.cols_bounds (h : c.wf = true) : 1 ≤ c.cols ∧ c.cols ≤ 255 := by
  obtain ⟨⟨hcols, -⟩, -⟩ := c.wf_iff.mp h
  exact hcols

theorem Config.rows_bounds (h : c.wf = true) : 1 ≤ c.rows ∧ c.rows ≤ 255 := by
  obtain ⟨⟨-, hrows, -⟩, -⟩ := c.wf_iff.mp h
  exact hrows

theorem Config.width_bounds (h : c.wf = true) : 1 ≤ c.width ∧ c.width ≤ 255 := by
  obtain ⟨⟨-, -, hwidth, -⟩, -⟩ := c.wf_iff.mp h
  exact hwidth

theorem Config.height_bounds (h : c.wf = true) : 8 ≤ c.height ∧ c.height ≤ 248 ∧ c.height % 8 = 0 := by
  obtain ⟨⟨-, -, -, hheight⟩, -⟩ := c.wf_iff.mp h
  exact hheight

theorem Config.pages_bounds (h : c.wf = true) : 1 ≤ c.pages ∧ c.pages ≤ 31 := by
  have := c.height_bounds h
  unfold Config.pages
  omega

theorem Config.gridSize_le (h : c.wf = true) : c.gridSize ≤ 65025 :=
  Nat.mul_le_mul (c.cols_bounds h).2 (c.rows_bounds h).2

theorem Config.fbSize_le (h : c.wf = true) : c.fbSize ≤ 7905 :=
  Nat.mul_le_mul (c.width_bounds h).2 (c.pages_bounds h).2

theorem Config.bw_eq_zero_iff (h : c.wf = true) : c.bw = 0 ↔ c.width < c.cols :=
  Nat.div_eq_zero_iff_lt (c.cols_bounds h).1

theorem Config.bh_eq_zero_iff (h : c.wf = true) : c.bh = 0 ↔ c.height < c.rows :=
  Nat.div_eq_zero_iff_lt (c.rows_bounds h).1

theorem Config.bw_le (h : c.wf = true) : c.bw ≤ 255 := (Nat.div_le_self ..).trans (c.width_bounds h).2

theorem Config.bh_le (h : c.wf = true) : c.bh ≤ 248 := (Nat.div_le_self ..).trans (c.height_bounds h).2.1

/-- An index of the framebuffer lies on one of the device's pages. -/
theorem Config.page_lt_of_lt_fbSize {k : Nat} (hk : k < c.fbSize) : k / c.width < c.pages :=
  Nat.div_lt_of_lt_mul hk

/-- Cell `(x, y)` of the grid is inside `GRID` (20_memory.md R54). -/
theorem Config.cell_lt_gridSize {x y : Nat} (hx : x < c.cols) (hy : y < c.rows) : y * c.cols + x < c.gridSize :=
  calc y * c.cols + x < (y + 1) * c.cols := by rw [Nat.succ_mul]; omega
    _ ≤ c.rows * c.cols := Nat.mul_le_mul_right _ hy
    _ = c.gridSize := Nat.mul_comm ..

end Sys2Proof

/-- Settles O49: the constants by definition, each range from the bounds of R10. -/
theorem derivedConstants : Obligations.DerivedConstants := by
  intro c h
  obtain ⟨hpages, hpages'⟩ := c.pages_bounds h
  exact ⟨rfl, rfl, rfl, rfl, rfl, hpages, hpages', c.bw_le h, c.bh_le h, c.gridSize_le h, c.fbSize_le h,
    c.bw_eq_zero_iff h, c.bh_eq_zero_iff h⟩

end

section
/-! Everything one step can do, by the host's next event. -/

namespace Sys2Proof.Machine

variable {s : State} {w : HostWord}

theorem step_of_bad_config (h : s.cfg.wf = false) : step s = .refused .badConfiguration := by
  simp [step, cycle, h]

theorem step_of_idle (h : s.cfg.wf = true) (hp : s.pending = []) : step s = .next s := by
  simp [step, cycle, h, hp]

theorem step_of_event {e : HostEvent} {es : List HostEvent} (h : s.cfg.wf = true) (hp : s.pending = e :: es) :
    step s = performEvent e (s.withPending es) := by
  simp [step, cycle, h, hp]

theorem performWord_of_ok {i : Instr} (h : decode w = .ok i) : performWord w s = exec i s := by
  simp [performWord, h]

theorem performWord_of_illegal {op : Byte} (h : decode w = .error (.illegalCommand op)) :
    performWord w s = .next (s.raise .illegalCmd) := by
  simp [performWord, h]

/-- A presented word is put before the host's queue. -/
theorem withFetchWord_toNat (s : State) (w : HostWord) :
    s.withFetchWord 27 w.toNat = s.withPending (.request w :: s.pending) := by
  have hw : wordOfNat 27 w.toNat = some w := by
    rw [wordOfNat, Nat.mod_eq_of_lt w.isLt, if_pos w.isLt, BitVec.ofNat_toNat, BitVec.setWidth_eq]
  simp [State.withFetchWord, present, hw]

theorem emitsOnDisplay_iff (w : HostWord) :
    emitsOnDisplay w = true ↔ decode w = .ok .init ∨ decode w = .ok .commit := by
  unfold emitsOnDisplay
  split <;> simp_all

@[simp] theorem lost_devByte (d : Sink) (k : Nat) : d.lost.devByte k = Config.freeByte .dev (d.devEpoch + 1) k := rfl

/-- The display device after a reset inside the command of `w` (70_reset_and_hazards.md R171; log 9). -/
def Sink.afterResetDuring (d : Sink) (w : HostWord) : Sink := if emitsOnDisplay w then d.lost else d

/-- A reset inside a command is a reset of the block beside whatever became of the device. -/
theorem resetDuringWord_eq (w : HostWord) (s : State) :
    resetDuringWord w s = { s.applyReset with sink := s.sink.afterResetDuring w } := by
  unfold resetDuringWord Sink.afterResetDuring
  split <;> rfl

theorem afterResetDuring_of_emits (d : Sink) (h : decode w = .ok .init ∨ decode w = .ok .commit) :
    d.afterResetDuring w = d.lost := if_pos ((emitsOnDisplay_iff w).mpr h)

theorem afterResetDuring_of_silent (d : Sink) (h : ¬(decode w = .ok .init ∨ decode w = .ok .commit)) :
    d.afterResetDuring w = d := if_neg (mt (emitsOnDisplay_iff w).mp h)

end Sys2Proof.Machine

open Sys2Proof Sys2Proof.Machine

/-- Settles O5: a step performs the queue's head, and performing a word that decodes is running its instruction. -/
theorem stepRunsTheDecodedInstruction : Obligations.StepRunsTheDecodedInstruction := by
  have key : ∀ (s : State) w es i, s.cfg.wf = true → s.pending = .request w :: es → decode w = .ok i →
      step s = exec i (s.withPending es) := fun s w es i hc hp hd =>
    (step_of_event hc hp).trans (performWord_of_ok hd)
  refine ⟨key, fun s w i hc hd => ?_⟩
  rw [withFetchWord_toNat]
  exact key (s.withPending (.request w :: s.pending)) w s.pending i hc rfl hd

/-- Settles O6, one clause per kind of input; the device after a reset inside a command is `Sink.afterResetDuring`. -/
theorem stepOnEveryOtherInput : Obligations.StepOnEveryOtherInput := by
  intro s
  refine ⟨step_of_idle, ?illegal, ?reset, ?resetDuring, step_of_bad_config⟩
  case illegal =>
    intro w es op hc hp hd
    exact (step_of_event hc hp).trans (performWord_of_illegal hd)
  case reset =>
    intro es hc hp
    exact step_of_event hc hp
  case resetDuring =>
    intro w es hc hp
    refine ⟨s.sink.afterResetDuring w, ?_, fun hd k => ?_, fun hi hcm => ?_⟩
    · rw [step_of_event hc hp, performEvent, resetDuringWord_eq]
      rfl
    · rw [afterResetDuring_of_emits _ hd, lost_devByte]
    · exact afterResetDuring_of_silent _ (not_or.mpr ⟨hi, hcm⟩)

end

section
/-! The four commands of `TICK` (30_encoding.md R79), each by the state it answers. -/

namespace Sys2Proof.Machine

theorem execAll_cons_of_next {i : Instr} {is : List Instr} {s t : State} (h : exec i s = .next t) :
    execAll (i :: is) s = execAll is t := by
  simp [execAll, h, andThen]

/-! ### UNPACK and RASTER -/

/-- The state UNPACK answers. -/
def unpacked (s : State) : State :=
  (s.setSamples (Vector.ofFn fun i => unpackSample s.frameByte i.val)).respond 0x00#8

theorem exec_unpack (s : State) : exec .unpack s = .next (unpacked s) := execUnpack_next s

theorem unpacked_v (s : State) (i : Fin 16) : (unpacked s).v[i] = unpackSample s.frameByte i.val := by
  simp [unpacked]

@[simp] theorem unpacked_cfg (s : State) : (unpacked s).cfg = s.cfg := by simp [unpacked]
@[simp] theorem unpacked_f (s : State) : (unpacked s).f = s.f := by simp [unpacked]
@[simp] theorem unpacked_initd (s : State) : (unpacked s).initd = s.initd := by simp [unpacked]
@[simp] theorem unpacked_sink (s : State) : (unpacked s).sink = s.sink := by simp [unpacked]
@[simp] theorem unpacked_programFault (s : State) : (unpacked s).programFault = s.programFault := by simp [unpacked]

theorem unpacked_sampleNat (s : State) :
    (unpacked s).sampleNat = fun i => if i < 16 then (unpackSample s.frameByte i).toNat else 0 := by
  funext i
  by_cases h : i < 16 <;> simp [State.sampleNat, unpacked, Vector.getD, h]

/-- The state RASTER answers. -/
def rastered (s : State) : State :=
  (s.writeGrid 0 (bytesOf s.cfg.gridSize (rasterByte s.cfg s.sampleNat))).respond 0x00#8

theorem exec_raster (s : State) : exec .raster s = .next (rastered s) := execRaster_next s

@[simp] theorem rastered_cfg (s : State) : (rastered s).cfg = s.cfg := by simp [rastered]
@[simp] theorem rastered_v (s : State) : (rastered s).v = s.v := by simp [rastered]
@[simp] theorem rastered_f (s : State) : (rastered s).f = s.f := by simp [rastered]
@[simp] theorem rastered_initd (s : State) : (rastered s).initd = s.initd := by simp [rastered]
@[simp] theorem rastered_sink (s : State) : (rastered s).sink = s.sink := by simp [rastered]
@[simp] theorem rastered_programFault (s : State) : (rastered s).programFault = s.programFault := by simp [rastered]

theorem rastered_gridByte {s : State} {k : Nat} (hk : k < s.cfg.gridSize) :
    (rastered s).gridByte k = rasterByte s.cfg s.sampleNat k := by
  simp [rastered, gridByte_writeGrid, hk]

/-- RASTER writes every cell, so a RENDER after it reads no unwritten one. -/
theorem rastered_filled (s : State) : Memory.filled (rastered s).grid s.cfg.gridSize = true := by
  simpa [rastered] using
    Memory.filled_writeBytes_zero s.grid (bytesOf s.cfg.gridSize (rasterByte s.cfg s.sampleNat))

/-! ### RENDER -/

/-- A pixel depends on no byte beyond `GRID` (43_display_init_and_pager.md R126). -/
theorem pixelLit_congr {c : Config} {g g' : Nat → Byte} (h : ∀ k, k < c.gridSize → g k = g' k) (px py : Nat) :
    pixelLit c g px py = pixelLit c g' px py := by
  unfold pixelLit
  by_cases hc : px / c.bw < c.cols ∧ py / c.bh < c.rows
  · rw [h _ (Config.cell_lt_gridSize hc.1 hc.2)]
  · rcases not_and_or.mp hc with hx | hy
    · simp [hx]
    · simp [hy]

theorem pageByte_congr {c : Config} {g g' : Nat → Byte} (h : ∀ k, k < c.gridSize → g k = g' k) :
    pageByte c g = pageByte c g' := by
  funext k
  simp only [pageByte, pixelLit_congr h]

@[simp] theorem rendered_cfg (s : State) : (rendered s).cfg = s.cfg := by simp [rendered]
@[simp] theorem rendered_v (s : State) : (rendered s).v = s.v := by simp [rendered]
@[simp] theorem rendered_f (s : State) : (rendered s).f = s.f := by simp [rendered]
@[simp] theorem rendered_initd (s : State) : (rendered s).initd = s.initd := by simp [rendered]
@[simp] theorem rendered_sink (s : State) : (rendered s).sink = s.sink := by simp [rendered]

theorem rendered_fbByte {s : State} {k : Nat} (hk : k < s.cfg.fbSize) :
    (rendered s).fbByte k = pageByte s.cfg s.gridByte k := by
  simp [rendered, fbByte_writeFb, hk]

theorem rendered_programFault {s : State} (h : Memory.filled s.grid s.cfg.gridSize = true) :
    (rendered s).programFault = s.programFault := by
  simp [rendered, h]

/-! ### COMMIT -/

section
variable (s : State)

@[simp] theorem committed_v : (committed s).v = s.v := by
  obtain ⟨m, hm⟩ := committed_eq s; rw [hm]

@[simp] theorem committed_f : (committed s).f = s.f := by
  obtain ⟨m, hm⟩ := committed_eq s; rw [hm]

@[simp] theorem committed_ffr : (committed s).ffr = false := rfl

@[simp] theorem committed_programFault : (committed s).programFault = s.programFault := by
  obtain ⟨m, hm⟩ := committed_eq s; rw [hm]

@[simp] theorem committed_fbByte (k : Nat) : (committed s).fbByte k = s.fbByte k := by
  obtain ⟨m, hm⟩ := committed_eq s; rw [hm]; rfl

end

/-- After a COMMIT the cache is the framebuffer: a sent page is copied, and a page that is not sent was equal. -/
theorem committed_dcByte_eq_fbByte {s : State} (hc : s.cfg.wf = true) {k : Nat} (hk : k < s.cfg.fbSize) :
    (committed s).dcByte k = s.fbByte k := by
  have hw := (Config.width_bounds hc).1
  rw [committed_dcByte s k hw]
  split
  · rfl
  · next hns =>
    have hsent : s.pageSent (k / s.cfg.width) ≠ true := fun h =>
      hns (mem_sentPages.mpr ⟨Config.page_lt_of_lt_fbSize hk, h⟩)
    have hclean : s.pageDirty (k / s.cfg.width) = false := by simp_all [State.pageSent]
    exact (eq_of_not_pageDirty hclean hw rfl).symm

/-! ### TICK -/

/-- The state in which TICK's COMMIT starts. -/
def tickRendered (s : State) : State := rendered (rastered (unpacked s))

section
variable (s : State)

@[simp] theorem tickRendered_cfg : (tickRendered s).cfg = s.cfg := by simp [tickRendered]

@[simp] theorem tickRendered_v (i : Fin 16) : (tickRendered s).v[i] = unpackSample s.frameByte i.val := by
  simp only [tickRendered, rendered_v, rastered_v, unpacked_v]

@[simp] theorem tickRendered_f : (tickRendered s).f = s.f := by simp [tickRendered]

@[simp] theorem tickRendered_initd : (tickRendered s).initd = s.initd := by simp [tickRendered]

@[simp] theorem tickRendered_sink : (tickRendered s).sink = s.sink := by simp [tickRendered]

/-- RENDER does not mark the run, since RASTER has written every cell (70_reset_and_hazards.md R176; log 4). -/
@[simp] theorem tickRendered_programFault : (tickRendered s).programFault = s.programFault := by
  have hfilled : Memory.filled (rastered (unpacked s)).grid (rastered (unpacked s)).cfg.gridSize = true := by
    rw [rastered_cfg, rastered_filled]
  rw [tickRendered, rendered_programFault hfilled, rastered_programFault, unpacked_programFault]

/-- The framebuffer before TICK's COMMIT is the page of the raster of the unpacked frame. -/
theorem tickRendered_fbByte {k : Nat} (hk : k < s.cfg.fbSize) :
    (tickRendered s).fbByte k =
      pageByte s.cfg (rasterByte s.cfg fun i => if i < 16 then (unpackSample s.frameByte i).toNat else 0) k := by
  have hgrid : pageByte s.cfg (rastered (unpacked s)).gridByte =
      pageByte s.cfg (rasterByte s.cfg (unpacked s).sampleNat) := by
    refine pageByte_congr fun j hj => ?_
    rw [rastered_gridByte (by simpa using hj), unpacked_cfg]
  rw [tickRendered, rendered_fbByte (by simpa using hk), rastered_cfg, unpacked_cfg, hgrid, unpacked_sampleNat]

end

/-- TICK completes when the block is initialised and the sink takes every token. -/
theorem execAll_tick {s : State} (hi : s.initd = true) (hr : s.sink.room = none) :
    execAll Pseudo.TICK.expand s = .next (committed (tickRendered s)) := by
  have hrender : exec .render (rastered (unpacked s)) = .next (tickRendered s) := execRender_next (by simp [hi])
  have hcommit : exec .commit (tickRendered s) = .next (committed (tickRendered s)) :=
    execCommit_next (by simp [hi]) (by simp [hr])
  rw [Pseudo.expand, execAll_cons_of_next (exec_unpack s), execAll_cons_of_next (exec_raster _),
    execAll_cons_of_next hrender, execAll_cons_of_next hcommit, execAll]

end Sys2Proof.Machine

open Sys2Proof.Machine

/-- Settles O55: TICK's four commands in turn, by what each leaves in the fields the statement names. -/
theorem tickShowsTheFrame : Obligations.TickShowsTheFrame := by
  intro s hc hi hr
  refine ⟨committed (tickRendered s), execAll_tick hi hr, fun i => ?samples, ?frame, committed_ffr _, ?mark,
    fun k hk => ⟨?page, ?cache⟩⟩
  case samples => rw [committed_v, tickRendered_v]
  case frame => rw [committed_f, tickRendered_f]
  case mark => rw [committed_programFault, tickRendered_programFault]
  case page => rw [committed_fbByte, tickRendered_fbByte s hk]
  case cache => rw [committed_fbByte, committed_dcByte_eq_fbByte (by simpa using hc) (by simpa using hk)]

end

section
/-! Everything an instruction that completes can do to the state, and what COMMIT leaves unchanged. -/

namespace Sys2Proof.Machine

/-! ### The inversion of `exec` -/

/-- `Completes s i t`: instruction `i` takes `s` to `t`, one constructor per way an instruction can complete. A write has
one for each kind of element that 20_memory.md R52 lets it land on. Which byte RD answers and which error refuses an
instruction is left open. -/
inductive Completes (s : State) : Instr → State → Prop
  | refused (i : Instr) (e : ErrorCode) : Completes s i (s.raise e)
  | rd (addr : HostAddr) (b : Byte) : Completes s (.rd addr) (s.respond b)
  | wrErr (d : Byte) : Completes s (.wr 0x00002#18 d) (s.clearErr.respond 0x00#8)
  | wrSample {addr : HostAddr} (d : Byte) {j : Fin 16} (haddr : addr.toNat = 0x10 + j.val) :
      Completes s (.wr addr d) ((s.setSample j (d.extractLsb' 0 3)).respond 0x00#8)
  | wrFrame {addr : HostAddr} (d : Byte) {j : Fin 6} (haddr : addr.toNat = 0x20 + j.val) :
      Completes s (.wr addr d) ((s.setFrameByte j d).respond 0x00#8)
  | wrGrid {addr : HostAddr} (d : Byte) {k : Nat} (haddr : addr.toNat = 0x10000 + k) (hk : k < s.cfg.gridSize) :
      Completes s (.wr addr d) ((s.writeGrid k [d]).respond 0x00#8)
  | pack : Completes s .pack ((s.setFrame (Vector.ofFn fun k => packByte s.sampleNat k.val)).respond 0x00#8)
  | unpack : Completes s .unpack ((s.setSamples (Vector.ofFn fun j => unpackSample s.frameByte j.val)).respond 0x00#8)
  | raster :
      Completes s .raster ((s.writeGrid 0 (bytesOf s.cfg.gridSize (rasterByte s.cfg s.sampleNat))).respond 0x00#8)
  | init :
      Completes s .init
        ((((((s.emitted [.initSeq]).writeFb 0 (bytesOf s.cfg.fbSize fun _ => 0x00#8)).writeDc 0
          (bytesOf s.cfg.fbSize fun _ => 0x00#8)).setFfr true).setInitd true).respond 0x00#8)
  | render (hinitd : s.initd = true) :
      Completes s .render
        (((s.writeFb 0 (bytesOf s.cfg.fbSize (pageByte s.cfg s.gridByte))).markProgramFault
          (!Memory.filled s.grid s.cfg.gridSize)).respond 0x00#8)
  | commit (hinitd : s.initd = true) : Completes s .commit (committed s)

/-! The address map read backwards: the address of each kind of location that a write can change. -/

theorem locate_eq_err {c : Config} {addr : HostAddr} (h : locate c addr = .err) : addr = 0x00002#18 := by
  have haddr : addr.toNat = 0x2 := by have := locate_cases c addr; simp_all
  exact BitVec.eq_of_toNat_eq haddr

theorem locate_eq_sample {c : Config} {addr : HostAddr} {j : Fin 16} (h : locate c addr = .sample j) :
    addr.toNat = 0x10 + j.val := by
  have := locate_cases c addr
  simp_all

theorem locate_eq_frame {c : Config} {addr : HostAddr} {j : Fin 6} (h : locate c addr = .frame j) :
    addr.toNat = 0x20 + j.val := by
  have := locate_cases c addr
  simp_all

theorem locate_eq_grid {c : Config} {addr : HostAddr} {k : Nat} (h : locate c addr = .grid k) :
    addr.toNat = 0x10000 + k ∧ k < c.gridSize := by
  have := locate_cases c addr
  simp_all

variable {s t : State} {i : Instr}

theorem completes_of_execWr {addr : HostAddr} {d : Byte} (h : exec (.wr addr d) s = .next t) :
    Completes s (.wr addr d) t := by
  rcases execWr_cases addr d s with ⟨u, hu, e⟩ | ⟨code, -, e⟩ | ⟨-, e⟩ <;> rw [e] at h <;> cases h
  case inl.refl =>
    rcases writeLocation_ok hu with ⟨hl, rfl⟩ | ⟨j, hl, rfl⟩ | ⟨j, hl, rfl⟩ | ⟨k, hl, rfl⟩
    · rw [locate_eq_err hl]
      exact .wrErr d
    · exact .wrSample d (locate_eq_sample hl)
    · exact .wrFrame d (locate_eq_frame hl)
    · exact .wrGrid d (locate_eq_grid hl).1 (locate_eq_grid hl).2
  case inr.inl.refl => exact .refused _ code

/-- The inversion lemma of `exec`: an instruction that completes does one of the things `Completes` lists. -/
theorem completes_of_exec (h : exec i s = .next t) : Completes s i t := by
  cases i with
  | rd addr =>
    rcases execRd_cases addr s with ⟨b, -, e⟩ | ⟨-, e⟩ <;> rw [e] at h <;> cases h
    · exact .rd addr b
    · exact .refused _ _
  | wr addr d => exact completes_of_execWr h
  | pack => rw [execPack_next] at h; cases h; exact .pack
  | unpack => rw [execUnpack_next] at h; cases h; exact .unpack
  | raster => rw [execRaster_next] at h; cases h; exact .raster
  | init =>
    rcases execInit_cases s with ⟨-, e⟩ | ⟨-, e⟩ <;> rw [e] at h <;> cases h
    exact .init
  | render =>
    rcases execRender_cases s with ⟨-, e⟩ | ⟨hinitd, e⟩ <;> rw [e] at h <;> cases h
    · exact .refused _ _
    · exact .render hinitd
  | commit =>
    rcases execCommit_cases s with ⟨-, e⟩ | ⟨hinitd, -, e⟩ | ⟨-, -, e⟩ <;> rw [e] at h <;> cases h
    · exact .refused _ _
    · exact .commit hinitd

/-! ### What COMMIT leaves unchanged -/

section
variable (s : State)

@[simp] theorem committed_cfg : (committed s).cfg = s.cfg := by
  obtain ⟨m, hm⟩ := committed_eq s; rw [hm]

@[simp] theorem committed_initd : (committed s).initd = s.initd := by
  obtain ⟨m, hm⟩ := committed_eq s; rw [hm]

@[simp] theorem committed_err : (committed s).err = s.err := by
  obtain ⟨m, hm⟩ := committed_eq s; rw [hm]

@[simp] theorem committed_pending : (committed s).pending = s.pending := by
  obtain ⟨m, hm⟩ := committed_eq s; rw [hm]

@[simp] theorem committed_epoch : (committed s).epoch = s.epoch := by
  obtain ⟨m, hm⟩ := committed_eq s; rw [hm]

@[simp] theorem committed_gridByte (k : Nat) : (committed s).gridByte k = s.gridByte k := by
  obtain ⟨m, hm⟩ := committed_eq s; rw [hm]; rfl

end

theorem Completes.cfg_eq (h : Completes s i t) : t.cfg = s.cfg := by
  cases h <;> simp

end Sys2Proof.Machine

end

section
/-! The invariant: right after a reset, and under each update of the state, each event and each step. -/

namespace Sys2Proof

/-- The columns of page `p` are inside `FB` and `DC`. -/
theorem Config.page_end_le_fbSize {c : Config} {p : Nat} (hp : p < c.pages) : p * c.width + c.width ≤ c.fbSize :=
  calc p * c.width + c.width = (p + 1) * c.width := (Nat.succ_mul ..).symm
    _ ≤ c.pages * c.width := Nat.mul_le_mul_right _ hp
    _ = c.fbSize := Nat.mul_comm ..

end Sys2Proof

namespace Sys2Proof.Machine

/-- A write that stays below `size` leaves a memory below `size`. -/
theorem Memory.lt_of_mem_writeBytes {m : Memory} {base size : Nat} {bytes : List Byte}
    (hm : ∀ cell ∈ m, cell.1 < size) (hsize : base + bytes.length ≤ size) :
    ∀ cell ∈ Memory.writeBytes m base bytes, cell.1 < size := by
  intro cell hcell
  rcases Memory.mem_writeBytes hcell with hold | ⟨-, hlt⟩
  · exact hm cell hold
  · exact hlt.trans_le hsize

/-- Writing every byte of a memory from a function of the index fills it. -/
theorem Memory.filled_writeBytes_bytesOf (m : Memory) (n : Nat) (g : Nat → Byte) :
    Memory.filled (Memory.writeBytes m 0 (bytesOf n g)) n = true := by
  simpa using Memory.filled_writeBytes_zero m (bytesOf n g)

/-- The reference sink keeps the canonical form of `DEV`. -/
theorem wf_dev_foldl_take (c : Config) (es : List Emission) (d : Sink) (h : Memory.wf d.dev = true) :
    Memory.wf (es.foldl (Sink.take c) d).dev = true := by
  induction es generalizing d with
  | nil => exact h
  | cons e es ih =>
    refine ih _ ?_
    cases e with
    | data bytes => exact Memory.wf_writeBytes _ _ _ h
    | _ => exact h

theorem toNat_code_le (e : ErrorCode) : e.code.toNat ≤ 4 := by cases e <;> decide

/-! ### Right after a reset -/

/-- The block's own state is that of 10_state.md R39, whatever the configuration, the device and the host's queue. -/
structure State.AtReset (s : State) : Prop where
  v : s.v = Vector.replicate 16 0#3
  f : s.f = Vector.replicate 6 0x00#8
  grid : s.grid = []
  fb : s.fb = []
  dc : s.dc = []
  ffr : s.ffr = true
  initd : s.initd = false
  err : s.err = 0x00#8
  trace : s.trace = []

theorem resetWith_atReset (c : Config) : (State.resetWith c).AtReset := by constructor <;> rfl

theorem applyReset_atReset (s : State) : s.applyReset.AtReset := by constructor <;> rfl

theorem resetDuringWord_atReset (w : HostWord) (s : State) : (resetDuringWord w s).AtReset := by
  rw [resetDuringWord_eq]
  constructor <;> rfl

theorem State.AtReset.inv {s : State} (h : s.AtReset) (hdev : Memory.wf s.sink.dev = true) : s.Inv where
  gridCanonical := by rw [h.grid]; rfl
  fbCanonical := by rw [h.fb]; rfl
  dcCanonical := by rw [h.dc]; rfl
  devCanonical := hdev
  gridBounded := by simp [h.grid]
  fbBounded := by simp [h.fb]
  dcBounded := by simp [h.dc]
  errLegal := by simp [h.err]
  uninitialisedForces _ := h.ffr
  initialisedFilled hinitd := by simp [h.initd] at hinitd

theorem State.AtReset.displayConsistent {s : State} (h : s.AtReset) : s.DisplayConsistent := fun hinitd => by
  simp [h.initd] at hinitd

theorem wf_dev_afterResetDuring {d : Sink} (w : HostWord) (h : Memory.wf d.dev = true) :
    Memory.wf (d.afterResetDuring w).dev = true := by
  unfold Sink.afterResetDuring
  split
  · rfl
  · exact h

/-! ### Under each update -/

namespace State.Inv

variable {s : State} (h : s.Inv)
include h

theorem respond (b : Byte) : (s.respond b).Inv := { h with }

theorem withPending (es : List HostEvent) : (s.withPending es).Inv := { h with }

theorem setSample (j : Fin 16) (x : Sample) : (s.setSample j x).Inv := { h with }

theorem setSamples (xs : Vector Sample 16) : (s.setSamples xs).Inv := { h with }

theorem setFrameByte (j : Fin 6) (b : Byte) : (s.setFrameByte j b).Inv := { h with }

theorem setFrame (bs : Vector Byte 6) : (s.setFrame bs).Inv := { h with }

theorem markProgramFault (bad : Bool) : (s.markProgramFault bad).Inv := { h with }

theorem clearErr : s.clearErr.Inv := { h with errLegal := by simp }

/-- A latched code stays, and a new one is one of the four. -/
theorem raise (e : ErrorCode) : (s.raise e).Inv where
  __ := h
  errLegal := by
    rw [raise_err]
    split
    · exact toNat_code_le e
    · exact h.errLegal

theorem writeGrid {base : Nat} {bytes : List Byte} (hsize : base + bytes.length ≤ s.cfg.gridSize) :
    (s.writeGrid base bytes).Inv where
  __ := h
  gridCanonical := Memory.wf_writeBytes _ _ _ h.gridCanonical
  gridBounded := Memory.lt_of_mem_writeBytes h.gridBounded hsize

theorem writeFb {base : Nat} {bytes : List Byte} (hsize : base + bytes.length ≤ s.cfg.fbSize) :
    (s.writeFb base bytes).Inv where
  __ := h
  fbCanonical := Memory.wf_writeBytes _ _ _ h.fbCanonical
  fbBounded := Memory.lt_of_mem_writeBytes h.fbBounded hsize
  initialisedFilled hinitd :=
    have ⟨hfb, hdc⟩ := h.initialisedFilled hinitd
    ⟨Memory.filled_writeBytes _ _ _ _ hfb, hdc⟩

theorem writeDc {base : Nat} {bytes : List Byte} (hsize : base + bytes.length ≤ s.cfg.fbSize) :
    (s.writeDc base bytes).Inv where
  __ := h
  dcCanonical := Memory.wf_writeBytes _ _ _ h.dcCanonical
  dcBounded := Memory.lt_of_mem_writeBytes h.dcBounded hsize
  initialisedFilled hinitd :=
    have ⟨hfb, hdc⟩ := h.initialisedFilled hinitd
    ⟨hfb, Memory.filled_writeBytes _ _ _ _ hdc⟩

theorem emitted (es : List Emission) : (s.emitted es).Inv where
  __ := h
  devCanonical := wf_dev_foldl_take _ _ _ h.devCanonical

/-- `FFR` may be cleared only once the block is initialised (10_state.md R31). -/
theorem setFfr {b : Bool} (hb : s.initd = false → b = true) : (s.setFfr b).Inv where
  __ := h
  uninitialisedForces := hb

/-- `INITD` may be set once `FB` and `DC` are written whole (43_display_init_and_pager.md R120). -/
theorem setInitd (hfb : Memory.filled s.fb s.cfg.fbSize = true) (hdc : Memory.filled s.dc s.cfg.fbSize = true) :
    (s.setInitd true).Inv where
  __ := h
  uninitialisedForces hinitd := by cases hinitd
  initialisedFilled _ := ⟨hfb, hdc⟩

theorem cachePage {p : Nat} (hp : p < s.cfg.pages) : (s.cachePage p).Inv :=
  h.writeDc (by rw [length_pageBytes]; exact Config.page_end_le_fbSize hp)

omit h in
theorem foldl_cachePage {pages : List Nat} {s : State} (h : s.Inv) (hpages : ∀ p ∈ pages, p < s.cfg.pages) :
    (pages.foldl State.cachePage s).Inv := by
  induction pages generalizing s with
  | nil => exact h
  | cons p pages ih =>
    exact ih (h.cachePage (hpages p List.mem_cons_self)) fun q hq => hpages q (List.mem_cons_of_mem _ hq)

/-! ### Under each command -/

theorem rastered : (rastered s).Inv := (h.writeGrid (by simp)).respond _

/-- INIT forces a redraw and writes `FB` and `DC` whole before it sets `INITD`. -/
theorem initialised : (initialised s).Inv := by
  refine (((((h.emitted [.initSeq]).writeFb ?_).writeDc ?_).setFfr fun _ => rfl).setInitd ?_ ?_).respond _
  · simp
  · simp
  · exact Memory.filled_writeBytes_bytesOf ..
  · exact Memory.filled_writeBytes_bytesOf ..

theorem rendered : (rendered s).Inv := ((h.writeFb (by simp)).markProgramFault _).respond _

/-- COMMIT clears `FFR`, but it only runs once initialised. -/
theorem committed (hinitd : s.initd = true) : (committed s).Inv := by
  have hcached := (h.emitted (commitEmissions s)).foldl_cachePage fun p (hp : p ∈ s.sentPages) => (mem_sentPages.mp hp).1
  refine (hcached.setFfr fun hcached_initd => ?_).respond _
  have hkept : (Machine.committed s).initd = true := by rw [committed_initd, hinitd]
  exact absurd (hcached_initd.symm.trans hkept) Bool.false_ne_true

theorem of_completes {i : Instr} {t : State} (hexec : Completes s i t) : t.Inv := by
  cases hexec with
  | refused _ e => exact h.raise e
  | rd _ b => exact h.respond b
  | wrErr => exact h.clearErr.respond _
  | wrSample => exact (h.setSample _ _).respond _
  | wrFrame => exact (h.setFrameByte _ _).respond _
  | wrGrid _ _ hk => exact (h.writeGrid hk).respond _
  | pack => exact (h.setFrame _).respond _
  | unpack => exact (h.setSamples _).respond _
  | raster => exact h.rastered
  | init => exact h.initialised
  | render => exact h.rendered
  | commit hinitd => exact h.committed hinitd

end State.Inv

/-! ### Under each event -/

variable {s t : State}

theorem performWord_keeps_inv {w : HostWord} (h : s.Inv) (hw : performWord w s = .next t) :
    t.Inv ∧ t.cfg = s.cfg := by
  rcases performWord_cases w s with ⟨i, -, e⟩ | ⟨op, -, e⟩ <;> rw [e] at hw
  · exact ⟨h.of_completes (completes_of_exec hw), (completes_of_exec hw).cfg_eq⟩
  · cases hw
    exact ⟨h.raise _, rfl⟩

theorem performEvent_keeps_inv {e : HostEvent} (h : s.Inv) (he : performEvent e s = .next t) :
    t.Inv ∧ t.cfg = s.cfg := by
  cases e with
  | request w => exact performWord_keeps_inv h he
  | reset =>
    cases he
    exact ⟨(applyReset_atReset s).inv h.devCanonical, rfl⟩
  | resetDuring w =>
    cases he
    refine ⟨(resetDuringWord_atReset w s).inv ?_, ?_⟩ <;> rw [resetDuringWord_eq]
    · exact wf_dev_afterResetDuring w h.devCanonical
    · rfl

/-- A step that answers a next state is idle or performs the head of the host's queue. -/
theorem step_eq_next (h : step s = .next t) :
    t = s ∨ ∃ e es, s.pending = e :: es ∧ performEvent e (s.withPending es) = .next t := by
  cases hc : s.cfg.wf with
  | false => rw [step_of_bad_config hc] at h; cases h
  | true =>
    cases hp : s.pending with
    | nil => rw [step_of_idle hc hp] at h; cases h; exact .inl rfl
    | cons e es => rw [step_of_event hc hp] at h; exact .inr ⟨e, es, rfl, h⟩

end Sys2Proof.Machine

open Sys2Proof.Machine

/-- Settles O51: each event keeps the invariant, a reset by starting it afresh and an instruction by what it writes. -/
theorem stepKeepsTheInvariant : Obligations.StepKeepsTheInvariant := by
  intro s t h hstep
  rcases step_eq_next hstep with rfl | ⟨e, es, -, he⟩
  · exact ⟨h, rfl⟩
  · exact performEvent_keeps_inv (s := s.withPending es) (h.withPending es) he

end

section
/-! The access matrix of 10_state.md R37, one theorem per element: no instruction changes an element it does not write. -/

namespace Sys2Proof.Machine

/-! ### The rows of the matrix

In each proof the named cases are the instructions that write the element, which the hypothesis excludes; every other
completion leaves the element as it stands. -/

namespace Completes

variable {s t : State} {i : Instr}

theorem v_eq (h : Completes s i t) (hunpack : i ≠ .unpack) (hwr : ∀ a d, i ≠ .wr a d) : t.v = s.v := by
  cases h with
  | unpack => exact absurd rfl hunpack
  | wrSample => exact absurd rfl (hwr _ _)
  | _ => simp

theorem f_eq (h : Completes s i t) (hpack : i ≠ .pack) (hwr : ∀ a d, i ≠ .wr a d) : t.f = s.f := by
  cases h with
  | pack => exact absurd rfl hpack
  | wrFrame => exact absurd rfl (hwr _ _)
  | _ => simp

theorem gridByte_eq (h : Completes s i t) (hraster : i ≠ .raster) (hwr : ∀ a d, i ≠ .wr a d) (k : Nat) :
    t.gridByte k = s.gridByte k := by
  cases h with
  | raster => exact absurd rfl hraster
  | wrGrid => exact absurd rfl (hwr _ _)
  | _ => simp

theorem fbByte_eq (h : Completes s i t) (hinit : i ≠ .init) (hrender : i ≠ .render) (k : Nat) :
    t.fbByte k = s.fbByte k := by
  cases h with
  | init => exact absurd rfl hinit
  | render => exact absurd rfl hrender
  | _ => simp

/-- What INIT and COMMIT alone write: `DC`, `FFR`, `TRACE` and the display device. -/
theorem display_eq (h : Completes s i t) (hinit : i ≠ .init) (hcommit : i ≠ .commit) :
    (∀ k, t.dcByte k = s.dcByte k) ∧ t.ffr = s.ffr ∧ t.trace = s.trace ∧ t.sink = s.sink := by
  cases h with
  | init => exact absurd rfl hinit
  | commit => exact absurd rfl hcommit
  | _ => simp

theorem initd_eq (h : Completes s i t) (hinit : i ≠ .init) : t.initd = s.initd := by
  cases h with
  | init => exact absurd rfl hinit
  | _ => simp

theorem err_cases (h : Completes s i t) :
    t.err = s.err ∨ (∃ d, i = .wr 0x00002#18 d ∧ t.err = 0x00#8) ∨ ∃ e : ErrorCode, t = s.refusedWith e.code := by
  cases h with
  | refused _ e => exact .inr (.inr ⟨e, rfl⟩)
  | wrErr d => exact .inr (.inl ⟨d, rfl, rfl⟩)
  | _ => exact .inl (by simp)

theorem pending_eq (h : Completes s i t) : t.pending = s.pending := by
  cases h <;> simp

theorem epoch_eq (h : Completes s i t) : t.epoch = s.epoch := by
  cases h <;> simp

theorem programFault_eq (h : Completes s i t) (hrender : i ≠ .render) : t.programFault = s.programFault := by
  cases h with
  | render => exact absurd rfl hrender
  | _ => simp

/-- A WR changes at most the one element of `V`, `F` or `GRID` that its address names (10_state.md R38). -/
theorem wr_touches_one {a : HostAddr} {d : Byte} (h : Completes s (.wr a d) t) :
    (t.v = s.v ∨ ∃ j : Fin 16, a.toNat = 0x10 + j.val ∧ t.v = s.v.set j (d.extractLsb' 0 3)) ∧
    (t.f = s.f ∨ ∃ j : Fin 6, a.toNat = 0x20 + j.val ∧ t.f = s.f.set j d) ∧
    ∀ k, a.toNat ≠ 0x10000 + k → t.gridByte k = s.gridByte k := by
  cases h with
  | refused => exact ⟨.inl rfl, .inl rfl, fun _ _ => rfl⟩
  | wrErr => exact ⟨.inl rfl, .inl rfl, fun _ _ => rfl⟩
  | wrSample _ haddr => exact ⟨.inr ⟨_, haddr, rfl⟩, .inl rfl, fun _ _ => rfl⟩
  | wrFrame _ haddr => exact ⟨.inl rfl, .inr ⟨_, haddr, rfl⟩, fun _ _ => rfl⟩
  | wrGrid _ haddr =>
    refine ⟨.inl rfl, .inl rfl, fun k hk => ?_⟩
    rw [respond_gridByte, gridByte_writeGrid_one, if_neg (by omega)]

end Completes

end Sys2Proof.Machine

open Sys2Proof.Machine

/-- Settles O46: the rows of the matrix, from the ways an instruction can complete. -/
theorem accessMatrix : Obligations.AccessMatrix := by
  intro i s t hexec
  have h := completes_of_exec hexec
  refine ⟨fun ⟨hunpack, hwr⟩ => h.v_eq hunpack hwr, fun ⟨hpack, hwr⟩ => h.f_eq hpack hwr,
    fun ⟨hraster, hwr⟩ => h.gridByte_eq hraster hwr, fun ⟨hinit, hrender⟩ => h.fbByte_eq hinit hrender,
    fun ⟨hinit, hcommit⟩ => h.display_eq hinit hcommit, h.initd_eq, h.err_cases, h.cfg_eq, h.pending_eq, h.epoch_eq,
    h.programFault_eq, ?_⟩
  rintro a d rfl
  exact h.wr_touches_one

end

section
/-! The DirtyCache is hidden (10_state.md R34). -/

namespace Sys2Proof.Machine

/-- Two outcomes that differ in `DC` alone. -/
inductive EqualButForCache : Host.Outcome State Fault Refusal → Host.Outcome State Fault Refusal → Prop
  | next (t : State) (m : Memory) : EqualButForCache (.next t) (.next { t with dc := m })
  | fault (r : Fault) : EqualButForCache (.fault r) (.fault r)
  | refused (r : Refusal) : EqualButForCache (.refused r) (.refused r)

namespace EqualButForCache

variable {o o' : Host.Outcome State Fault Refusal}

theorem next_eq {t : State} (h : EqualButForCache o o') (ho : o = .next t) :
    ∃ m, o' = .next { t with dc := m } := by
  subst ho
  cases h with
  | next _ m => exact ⟨m, rfl⟩

theorem fault_eq {r : Fault} (h : EqualButForCache o o') (ho : o = .fault r) : o' = .fault r := by
  subst ho
  cases h with
  | fault => rfl

theorem refused_eq {r : Refusal} (h : EqualButForCache o o') (ho : o = .refused r) : o' = .refused r := by
  subst ho
  cases h with
  | refused => rfl

end EqualButForCache

variable (s : State) (m : Memory)

/-- No location that a host address names shows the cache. -/
theorem readLocation_withCache (l : Location) : ({ s with dc := m } : State).readLocation l = s.readLocation l := by
  cases l <;> rfl

theorem execRd_equalButForCache (addr : HostAddr) :
    EqualButForCache (execRd addr s) (execRd addr { s with dc := m }) := by
  simp only [execRd, readLocation_withCache]
  cases s.readLocation (locate s.cfg addr) with
  | some b => exact .next (s.respond b) m
  | none => exact .next (s.raise .badAddr) m

theorem execWr_equalButForCache (addr : HostAddr) (d : Byte) :
    EqualButForCache (execWr addr d s) (execWr addr d { s with dc := m }) := by
  simp only [execWr]
  cases locate s.cfg addr with
  | cmd => exact .refused .notAWriteInstruction
  | err => exact .next (s.clearErr.respond 0x00#8) m
  | sample j => exact .next ((s.setSample j (d.extractLsb' 0 3)).respond 0x00#8) m
  | frame k => exact .next ((s.setFrameByte k d).respond 0x00#8) m
  | grid k => exact .next ((s.writeGrid k [d]).respond 0x00#8) m
  | unmapped => exact .next (s.raise .badAddr) m
  | _ => exact .next (s.raise .roWrite) m

/-- INIT writes the cache whatever it held, and whether the sink takes `INIT_SEQ` does not depend on it. -/
theorem execInit_equalButForCache : EqualButForCache (execInit s) (execInit { s with dc := m }) := by
  cases h : s.sink.accepts (tokenCount ([Emission.initSeq].flatMap (Emission.bursts s.cfg))) with
  | true =>
    simp only [execInit, State.emit, h, if_true, andThen]
    exact .next (initialised s) (initialised { s with dc := m }).dc
  | false =>
    simp only [execInit, State.emit, h, Bool.false_eq_true, if_false, andThen]
    exact .fault .sinkStalled

theorem execRender_equalButForCache : EqualButForCache (execRender s) (execRender { s with dc := m }) := by
  unfold execRender
  split
  · exact .next (s.raise .notInit) m
  · exact .next (rendered s) m

theorem exec_equalButForCache {i : Instr} (hi : i ≠ .commit) :
    EqualButForCache (exec i s) (exec i { s with dc := m }) := by
  cases i with
  | rd addr => exact execRd_equalButForCache s m addr
  | wr addr d => exact execWr_equalButForCache s m addr d
  | pack => exact .next ((s.setFrame (Vector.ofFn fun k => packByte s.sampleNat k.val)).respond 0x00#8) m
  | unpack => exact .next (unpacked s) m
  | raster => exact .next (rastered s) m
  | init => exact execInit_equalButForCache s m
  | render => exact execRender_equalButForCache s m
  | commit => exact absurd rfl hi

end Sys2Proof.Machine

open Sys2Proof.Machine

/-- Settles O47: the two outcomes differ in `DC` alone, whichever kind they are. -/
theorem cacheIsHidden : Obligations.CacheIsHidden := by
  intro i s m hi
  have h := exec_equalButForCache s m hi
  exact ⟨fun _ => h.next_eq, fun _ => h.fault_eq, fun _ => h.refused_eq⟩

end

section
/-! The values of `STATUS` (10_state.md R31) and of the block after a reset (R39). -/

namespace Sys2Proof.Machine

/-- `STATUS` read through the host port. -/
theorem exec_rd_status (s : State) : exec (.rd 0x00001#18) s = .next (s.answered s.statusByte) := rfl

/-- With `INITD = 0` only together with `FFR = 1`, `STATUS` is never `0x00` or `0x04`. -/
theorem statusByte_mem {s : State} (h : s.initd = false → s.ffr = true) :
    s.statusByte ∈ [0x01#8, 0x02#8, 0x03#8, 0x05#8, 0x06#8, 0x07#8] := by
  unfold State.statusByte
  generalize s.errorFlag = errf, s.ffr = ffr, s.initd = initd at h ⊢
  revert errf ffr initd
  decide

end Sys2Proof.Machine

open Sys2Proof Sys2Proof.Machine

/-- Settles O48: the invariant rules out the two values with `INITD = 0` and `FFR = 0`. -/
theorem statusValues : Obligations.StatusValues := fun s h =>
  ⟨s.statusByte, exec_rd_status s, statusByte_mem h.uninitialisedForces⟩

/-- Settles O8: both kinds of reset leave a state that is `AtReset`, whose memories list nothing. -/
theorem resetLeavesTheStatedValues : Obligations.ResetLeavesTheStatedValues := by
  refine ⟨fun _ => rfl, fun s hs => ?_⟩
  have h : s.AtReset := by
    rcases hs with ⟨c, rfl⟩ | ⟨u, rfl⟩
    · exact resetWith_atReset c
    · exact applyReset_atReset u
  refine ⟨fun i => ?samples, fun k => ?frame, h.ffr, h.initd, h.err, fun k => ?grid, fun k => ?fb, fun k => ?dc, h.trace⟩
  case samples => simp [h.v]
  case frame => simp [h.f]
  case grid => simp [State.gridByte, h.grid]
  case fb => simp [State.fbByte, h.fb]
  case dc => simp [State.dcByte, h.dc]

/-- Settles O50: each reset leaves a state that is `AtReset`, which meets both invariants. -/
theorem resetMeetsTheInvariants : Obligations.ResetMeetsTheInvariants :=
  ⟨fun c => ⟨(resetWith_atReset c).inv rfl, (resetWith_atReset c).displayConsistent⟩,
    fun s hdev => ⟨(applyReset_atReset s).inv hdev, (applyReset_atReset s).displayConsistent⟩⟩

end

section
/-! Runs (20_memory.md R61): nothing an event does depends on what the host will do next, so the step machine, which keeps
the events to come in `pending` (log 6), is the fold of the events over the state. -/

namespace Sys2Proof.Machine

/-! ### The display commands, each by the condition it ends under -/

section
variable {s : State}

theorem execInit_of_accepts (h : s.sink.accepts (tokenCount (s.cfg.initSeq.map Burst.command)) = true) :
    exec .init s = .next (initialised s) := by
  have := execInit_cases s
  simp_all

theorem execInit_of_stalled (h : s.sink.accepts (tokenCount (s.cfg.initSeq.map Burst.command)) = false) :
    exec .init s = .fault .sinkStalled := by
  have := execInit_cases s
  simp_all

theorem execRender_of_uninitialised (h : s.initd = false) : exec .render s = .next (s.raise .notInit) := by
  have := execRender_cases s
  simp_all

theorem execCommit_of_uninitialised (h : s.initd = false) : exec .commit s = .next (s.raise .notInit) := by
  have := execCommit_cases s
  simp_all

theorem execCommit_of_accepts (hi : s.initd = true)
    (h : s.sink.accepts (tokenCount ((commitEmissions s).flatMap (Emission.bursts s.cfg))) = true) :
    exec .commit s = .next (committed s) := by
  have := execCommit_cases s
  simp_all

theorem execCommit_of_stalled (hi : s.initd = true)
    (h : s.sink.accepts (tokenCount ((commitEmissions s).flatMap (Emission.bursts s.cfg))) = false) :
    exec .commit s = .fault .sinkStalled := by
  have := execCommit_cases s
  simp_all

end

/-! ### The queue is not looked at -/

/-- The outcome `o` with the queue `q` in its next state. -/
def thenPending (q : List HostEvent) (o : Host.Outcome State Fault Refusal) : Host.Outcome State Fault Refusal :=
  andThen o fun t => .next (t.withPending q)

variable (q : List HostEvent) (s : State)

theorem readLocation_withPending (l : Location) : (s.withPending q).readLocation l = s.readLocation l := by
  cases l <;> rfl

theorem execRd_withPending (addr : HostAddr) :
    execRd addr (s.withPending q) = thenPending q (execRd addr s) := by
  simp only [execRd, readLocation_withPending, withPending_cfg]
  cases s.readLocation (locate s.cfg addr) <;> rfl

theorem execWr_withPending (addr : HostAddr) (d : Byte) :
    execWr addr d (s.withPending q) = thenPending q (execWr addr d s) := by
  simp only [execWr, withPending_cfg]
  cases locate s.cfg addr <;> rfl

theorem execInit_withPending : exec .init (s.withPending q) = thenPending q (exec .init s) := by
  cases h : s.sink.accepts (tokenCount (s.cfg.initSeq.map Burst.command)) with
  | true =>
    rw [execInit_of_accepts h, execInit_of_accepts (s := s.withPending q) h]
    rfl
  | false =>
    rw [execInit_of_stalled h, execInit_of_stalled (s := s.withPending q) h]
    rfl

theorem execRender_withPending : exec .render (s.withPending q) = thenPending q (exec .render s) := by
  cases h : s.initd with
  | true =>
    rw [execRender_next h, execRender_next (s := s.withPending q) h]
    rfl
  | false =>
    rw [execRender_of_uninitialised h, execRender_of_uninitialised (s := s.withPending q) h]
    rfl

/-- COMMIT's cache updates go past the queue one page at a time. -/
theorem committed_withPending : committed (s.withPending q) = (committed s).withPending q := by
  have hcached : s.sentPages.foldl State.cachePage ((s.emitted (commitEmissions s)).withPending q) =
      (s.sentPages.foldl State.cachePage (s.emitted (commitEmissions s))).withPending q :=
    List.foldl_hom (State.withPending · q) fun _ _ => rfl
  exact congrArg (fun t => (t.setFfr false).respond 0x00#8) hcached

theorem execCommit_withPending : exec .commit (s.withPending q) = thenPending q (exec .commit s) := by
  cases hi : s.initd with
  | false =>
    rw [execCommit_of_uninitialised hi, execCommit_of_uninitialised (s := s.withPending q) hi]
    rfl
  | true =>
    cases h : s.sink.accepts (tokenCount ((commitEmissions s).flatMap (Emission.bursts s.cfg))) with
    | true =>
      rw [execCommit_of_accepts hi h, execCommit_of_accepts (s := s.withPending q) hi h, committed_withPending]
      rfl
    | false =>
      rw [execCommit_of_stalled hi h, execCommit_of_stalled (s := s.withPending q) hi h]
      rfl

theorem exec_withPending (i : Instr) : exec i (s.withPending q) = thenPending q (exec i s) := by
  cases i with
  | rd addr => exact execRd_withPending q s addr
  | wr addr d => exact execWr_withPending q s addr d
  | init => exact execInit_withPending q s
  | render => exact execRender_withPending q s
  | commit => exact execCommit_withPending q s
  | _ => rfl

theorem performWord_withPending (w : HostWord) : performWord w (s.withPending q) = thenPending q (performWord w s) := by
  rcases hd : decode w with ⟨op⟩ | i
  · simp only [performWord_of_illegal hd]
    rfl
  · simp only [performWord_of_ok hd, exec_withPending]

/-- An event is performed in the same way whatever the host will do next, which it leaves as it is. -/
theorem performEvent_withPending (e : HostEvent) :
    performEvent e (s.withPending q) = thenPending q (performEvent e s) := by
  cases e with
  | request w => exact performWord_withPending q s w
  | reset => rfl
  | resetDuring w =>
    simp only [performEvent, resetDuringWord_eq]
    rfl

variable {q s}

/-- No event changes the configuration (10_state.md R36; log 1). -/
theorem performEvent_cfg_eq {e : HostEvent} {t : State} (h : performEvent e s = .next t) : t.cfg = s.cfg := by
  cases e with
  | request w =>
    rcases performWord_cases w s with ⟨i, -, he⟩ | ⟨op, -, he⟩ <;> rw [performEvent, he] at h
    · exact (completes_of_exec h).cfg_eq
    · cases h
      rfl
  | reset =>
    cases h
    rfl
  | resetDuring w =>
    cases h
    rw [resetDuringWord_eq]
    rfl

/-! ### Runs -/

theorem core_run_succ (n : Nat) (s : core.State) : core.run (n + 1) s = andThen (step s) (core.run n) := by
  rw [Host.Core.run]
  change _ = andThen (core.step s) (core.run n)
  cases core.step s <;> rfl

theorem core_run_withPending (es : List HostEvent) (s : State) (h : s.cfg.wf = true) :
    core.run es.length (s.withPending es) = performAll es (s.withPending []) := by
  induction es generalizing s with
  | nil => rfl
  | cons e es ih =>
    have hstep : step (s.withPending (e :: es)) = thenPending es (performEvent e s) :=
      (step_of_event (s := s.withPending (e :: es)) h rfl).trans (performEvent_withPending es s e)
    refine (core_run_succ es.length (s.withPending (e :: es))).trans ?_
    rw [hstep, performAll, performEvent_withPending]
    cases he : performEvent e s with
    | next t => exact ih t (by rw [performEvent_cfg_eq he, h])
    | fault r => rfl
    | refused r => rfl

end Sys2Proof.Machine

open Sys2Proof.Machine

/-- Settles O7, by induction on the list: a step performs the head, and the events after it only wait in the queue. -/
theorem runFoldsTheTransactions : Obligations.RunFoldsTheTransactions := core_run_withPending

end

section
/-! Repeated accesses (20_memory.md R60). -/

namespace Sys2Proof.Machine

/-! ### RD -/

theorem locate_eq_unmapped {c : Config} {addr : HostAddr} (h : locate c addr = .unmapped) : Unmapped c addr.toNat := by
  have := addr.isLt
  have := locate_cases c addr
  simp_all [Unmapped]

variable {s t : State} {addr : HostAddr} {d : Byte} {l : Location}

theorem readLocation_eq_none (h : s.readLocation l = none) : l = .unmapped := by
  cases l <;> simp_all [State.readLocation]

theorem readLocation_respond (b : Byte) : (s.respond b).readLocation l = s.readLocation l := by
  cases l <;> rfl

/-- RD of a mapped address answers the byte there. -/
theorem execRd_of_mapped (h : ¬ Unmapped s.cfg addr.toNat) :
    ∃ b, s.readLocation (locate s.cfg addr) = some b ∧ exec (.rd addr) s = .next (s.respond b) := by
  rcases execRd_cases addr s with hb | ⟨hnone, -⟩
  · exact hb
  · exact absurd (locate_eq_unmapped (readLocation_eq_none hnone)) h

/-- RD changes nothing a RD can see, so the next one answers the same. -/
theorem execRd_twice (h : ¬ Unmapped s.cfg addr.toNat) :
    ∃ b, exec (.rd addr) s = .next (s.respond b) ∧ exec (.rd addr) (s.respond b) = .next ((s.respond b).respond b) := by
  obtain ⟨b, hb, he⟩ := execRd_of_mapped h
  obtain ⟨b', hb', he'⟩ := execRd_of_mapped (s := s.respond b) h
  have hsame : b' = b := by
    rw [respond_cfg, readLocation_respond, hb] at hb'
    exact (Option.some.inj hb').symm
  exact ⟨b, he, by rw [he', hsame]⟩

/-! ### WR -/

theorem Memory.filter_cellsFrom_eq_nil {p : Host.Cell → Bool} {base : Nat} {bytes : List Byte}
    (h : ∀ cell : Host.Cell, base ≤ cell.1 → cell.1 < base + bytes.length → p cell = false) :
    (cellsFrom base bytes).filter p = [] := by
  refine List.filter_eq_nil_iff.mpr fun cell hcell => ?_
  obtain ⟨hbase, hend⟩ := mem_cellsFrom hcell
  simp [h cell hbase hend]

/-- Writing the same bytes again leaves a memory as it is: the cells below and above are kept, in their order, and no cell
is both. -/
theorem Memory.writeBytes_writeBytes (m : Memory) (base : Nat) (bytes : List Byte) :
    writeBytes (writeBytes m base bytes) base bytes = writeBytes m base bytes := by
  have hlow : (cellsFrom base bytes).filter (fun cell => cell.1 < base) = [] :=
    filter_cellsFrom_eq_nil fun cell hbase _ => by simpa using hbase
  have hhigh : (cellsFrom base bytes).filter (fun cell => base + bytes.length ≤ cell.1) = [] :=
    filter_cellsFrom_eq_nil fun cell _ hend => by simpa using hend
  have hnone (cell : Host.Cell) : (decide (cell.1 < base) && decide (base + bytes.length ≤ cell.1)) = false := by
    simp only [Bool.and_eq_false_imp, decide_eq_true_eq, decide_eq_false_iff_not]
    omega
  have hnone' (cell : Host.Cell) : (decide (base + bytes.length ≤ cell.1) && decide (cell.1 < base)) = false := by
    rw [Bool.and_comm, hnone]
  simp [writeBytes, List.filter_filter, hlow, hhigh, hnone, hnone']

/-- The latch keeps the first of two errors (60_exceptions.md R152). -/
theorem raise_raise (s : State) (e e' : ErrorCode) :
    (s.raise e).raise e' =
      { s.raise e with responses := (s.raise e).responses ++ [{ rdata := 0x00#8, err := true }] } := by
  have hcode : e.code ≠ 0x00#8 := by cases e <;> decide
  have herr : (s.raise e).err ≠ 0x00#8 := by
    rw [raise_err]
    split <;> assumption
  rw [State.raise, if_neg herr]

/-- Writing the byte that a location already holds changes nothing. -/
theorem writeLocation_again (h : s.writeLocation d l = some (.ok t)) (b : Byte) :
    (t.respond b).writeLocation d l = some (.ok (t.respond b)) := by
  rcases writeLocation_ok h with ⟨rfl, rfl⟩ | ⟨i, rfl, rfl⟩ | ⟨k, rfl, rfl⟩ | ⟨k, rfl, rfl⟩
  · rfl
  · simp [State.writeLocation, State.setSample, State.respond]
  · simp [State.writeLocation, State.setFrameByte, State.respond]
  · simp [State.writeLocation, State.writeGrid, State.respond, Memory.writeBytes_writeBytes]

/-- Which error a write raises depends on the location alone. -/
theorem writeLocation_error {e : ErrorCode} (h : s.writeLocation d l = some (.error e)) (t : State) :
    t.writeLocation d l = some (.error e) := by
  cases l <;> simp_all [State.writeLocation]

theorem execWr_of_ok (h : s.writeLocation d (locate s.cfg addr) = some (.ok t)) :
    exec (.wr addr d) s = .next (t.respond 0x00#8) := by
  simp [exec, execWr, h]

theorem execWr_of_error {e : ErrorCode} (h : s.writeLocation d (locate s.cfg addr) = some (.error e)) :
    exec (.wr addr d) s = .next (s.raise e) := by
  simp [exec, execWr, h]

/-- The second of two equal WRs answers as the first did, and does nothing else. -/
theorem execWr_twice (h : exec (.wr addr d) s = .next t) :
    ∃ rs, exec (.wr addr d) t = .next { t with responses := rs } := by
  have hcfg := (completes_of_exec h).cfg_eq
  rcases execWr_cases addr d s with ⟨u, hu, e⟩ | ⟨code, hcode, e⟩ | ⟨-, e⟩ <;> rw [e] at h <;> cases h
  case inl.refl =>
    rw [← hcfg] at hu
    exact ⟨_, execWr_of_ok (writeLocation_again hu _)⟩
  case inr.inl.refl =>
    exact ⟨_, (execWr_of_error (writeLocation_error hcode (s.raise code))).trans (congrArg _ (raise_raise s code code))⟩

end Sys2Proof.Machine

open Sys2Proof.Machine

/-- Settles O14: a read changes nothing that is read, and a location that holds the byte written keeps it. -/
theorem repeatedAccessIsIdempotent : Obligations.RepeatedAccessIsIdempotent := by
  refine ⟨fun s t u addr hmapped ht hu => ?reads, fun s t u addr d ht hu => ?writes⟩
  case reads =>
    obtain ⟨b, he, he'⟩ := execRd_twice hmapped
    cases he.symm.trans ht
    cases he'.symm.trans hu
    exact ⟨_, rfl, rfl⟩
  case writes =>
    obtain ⟨rs, he⟩ := execWr_twice ht
    cases he.symm.trans hu
    rfl

end

section
/-! The display port: its bursts and their tokens (20_memory.md R64, R65), and the commands that emit on it, which hang
when the sink stalls (R66). -/

namespace Sys2Proof.Machine

/-! ### Tokens -/

theorem getElem?_tokens_data (bytes : List Byte) (j : Nat) :
    (Burst.data bytes).tokens[j]? =
      bytes[j]?.map fun b => { dc := true, byte := b, last := decide (j + 1 = bytes.length) } := by
  simp [Burst.tokens]

theorem dc_of_mem_tokens_data {bytes : List Byte} {x : Token} (h : x ∈ (Burst.data bytes).tokens) : x.dc = true := by
  obtain ⟨j, hj⟩ := List.mem_iff_getElem?.mp h
  rw [getElem?_tokens_data, Option.map_eq_some_iff] at hj
  obtain ⟨b, -, rfl⟩ := hj
  rfl

theorem last_iff_of_tokens_data {bytes : List Byte} {j : Nat} {x : Token} (h : (Burst.data bytes).tokens[j]? = some x) :
    x.last = true ↔ j + 1 = (Burst.data bytes).tokens.length := by
  rw [getElem?_tokens_data, Option.map_eq_some_iff] at h
  obtain ⟨b, -, rfl⟩ := h
  simp

theorem map_byte_tokens_data (bytes : List Byte) : (Burst.data bytes).tokens.map Token.byte = bytes := by
  refine List.ext_getElem? fun j => ?_
  rw [List.getElem?_map, getElem?_tokens_data, Option.map_map]
  exact congrFun Option.map_id _

theorem tokenCount_map_command (bytes : List Byte) : tokenCount (bytes.map Burst.command) = bytes.length := by
  simp [tokenCount, Function.comp_def]

/-! ### What an instruction emits -/

variable {s t : State} {i : Instr}

theorem Completes.trace_cases (h : Completes s i t) :
    t.trace = s.trace ∨ (i = .init ∧ t.trace = s.trace ++ s.cfg.initSeq.map Burst.command) ∨
      (i = .commit ∧ t.trace = s.trace ++ (commitEmissions s).flatMap (Emission.bursts s.cfg)) := by
  cases h with
  | init => exact .inr (.inl ⟨rfl, by simp [Emission.bursts]⟩)
  | commit =>
    obtain ⟨m, hm⟩ := committed_eq s
    exact .inr (.inr ⟨rfl, by rw [hm]⟩)
  | _ => exact .inl (by simp)

/-- The data bursts of a COMMIT are the chunks of its pages. -/
theorem data_mem_commitEmissions {bytes : List Byte}
    (h : Burst.data bytes ∈ (commitEmissions s).flatMap (Emission.bursts s.cfg)) :
    ∃ p, bytes ∈ chunks s.cfg.chunkMax (s.pageBytes p) := by
  obtain ⟨e, he, hburst⟩ := List.mem_flatMap.mp h
  obtain ⟨p, -, he⟩ := List.mem_flatMap.mp he
  rcases List.mem_cons.mp he with rfl | he
  · simp [Emission.bursts] at hburst
  · obtain ⟨chunk, hchunk, rfl⟩ := List.mem_map.mp he
    simp only [Emission.bursts, List.mem_singleton, Burst.data.injEq] at hburst
    exact ⟨p, hburst ▸ hchunk⟩

/-! ### A sink that stalls -/

theorem room_of_not_accepts {d : Sink} {n : Nat} (h : d.accepts n = false) : ∃ room, d.room = some room :=
  Option.ne_none_iff_exists'.mp fun hroom => by simp [accepts_of_room_none hroom] at h

/-- INIT and COMMIT alone fault, and only when the sink will not take some number of tokens. -/
theorem exec_eq_fault {r : Fault} (h : exec i s = .fault r) :
    (i = .init ∨ i = .commit) ∧ ∃ n, s.sink.accepts n = false := by
  cases i with
  | rd addr => rcases execRd_cases addr s with ⟨b, -, e⟩ | ⟨-, e⟩ <;> rw [e] at h <;> cases h
  | wr addr d => rcases execWr_cases addr d s with ⟨u, -, e⟩ | ⟨code, -, e⟩ | ⟨-, e⟩ <;> rw [e] at h <;> cases h
  | pack => rw [execPack_next] at h; cases h
  | unpack => rw [execUnpack_next] at h; cases h
  | raster => rw [execRaster_next] at h; cases h
  | init =>
    rcases execInit_cases s with ⟨-, e⟩ | ⟨hstall, -⟩
    · rw [e] at h; cases h
    · exact ⟨.inl rfl, _, hstall⟩
  | render => rcases execRender_cases s with ⟨-, e⟩ | ⟨-, e⟩ <;> rw [e] at h <;> cases h
  | commit =>
    rcases execCommit_cases s with ⟨-, e⟩ | ⟨-, -, e⟩ | ⟨-, hstall, -⟩
    · rw [e] at h; cases h
    · rw [e] at h; cases h
    · exact ⟨.inr rfl, _, hstall⟩

end Sys2Proof.Machine

open Sys2Proof Sys2Proof.Machine

/-- Settles O45, by the two kinds of burst. -/
theorem burstTokensAreMarked : Obligations.BurstTokensAreMarked := by
  intro b
  cases b with
  | command byte =>
    refine ⟨by simp [Burst.tokens], fun j x hx => ?last, nofun, ?bytes⟩
    case last =>
      obtain ⟨rfl, rfl⟩ : j = 0 ∧ x = ⟨false, byte, true⟩ := by
        simpa [Burst.tokens, List.getElem?_singleton, eq_comm] using hx
      simp
    case bytes => rintro _ ⟨⟩; rfl
  | data bytes =>
    refine ⟨fun x hx y hy => ?dc, fun j x => last_iff_of_tokens_data, ?bytes, nofun⟩
    case dc => rw [dc_of_mem_tokens_data hx, dc_of_mem_tokens_data hy]
    case bytes =>
      rintro _ ⟨⟩
      exact ⟨map_byte_tokens_data bytes, fun x => dc_of_mem_tokens_data⟩

/-- Settles O44: what INIT emits is commands, and COMMIT's data bursts are chunks. -/
theorem burstsAreBounded : Obligations.BurstsAreBounded := by
  intro i s t hc hexec
  rcases (completes_of_exec hexec).trace_cases with ht | ⟨rfl, ht⟩ | ⟨rfl, ht⟩
  · exact ⟨[], by simpa using ht, by simp⟩
  · exact ⟨_, ht, fun _ => .inl rfl, by simp⟩
  · refine ⟨_, ht, fun _ => .inr rfl, fun bytes hbytes => ?_⟩
    obtain ⟨p, hp⟩ := data_mem_commitEmissions hbytes
    obtain ⟨-, ⟨hchunk, -⟩, -⟩ := s.cfg.wf_iff.mp hc
    exact length_of_mem_chunks hchunk hp

/-- Settles O31: the ways INIT and COMMIT can end, and that nothing else faults. -/
theorem stalledSinkHangs : Obligations.StalledSinkHangs := by
  intro s
  refine ⟨fun h => execInit_of_stalled (by rwa [tokenCount_map_command]), execCommit_of_stalled, fun i r hfault => ?_⟩
  obtain ⟨hi, n, hn⟩ := exec_eq_fault hfault
  exact ⟨hi, room_of_not_accepts hn⟩

end

section
/-! The decoder: what it makes of a word by its fields (30_encoding.md R73), and what the word of an instruction it gives
is. -/

namespace Sys2Proof

/-! ### Words by their fields -/

theorem word_ext {w w' : HostWord} (hwe : weField w = weField w') (haddr : addrField w = addrField w')
    (hwdata : wdataField w = wdataField w') : w = w' := by
  rw [← wordOf_fields w, hwe, haddr, hwdata, wordOf_fields]

@[simp] theorem weField_and (w m : HostWord) : weField (w &&& m) = (weField w && weField m) := BitVec.getLsbD_and

@[simp] theorem addrField_and (w m : HostWord) : addrField (w &&& m) = addrField w &&& addrField m :=
  BitVec.extractLsb'_and

@[simp] theorem wdataField_and (w m : HostWord) : wdataField (w &&& m) = wdataField w &&& wdataField m :=
  BitVec.extractLsb'_and

/-! ### The three steps of R73 -/

section
variable {w : HostWord}

theorem decode_of_read (hwe : weField w = false) : decode w = .ok (.rd (addrField w)) := by
  rw [decode, if_pos hwe]

theorem decode_of_write (hwe : weField w = true) (haddr : addrField w ≠ 0#18) :
    decode w = .ok (.wr (addrField w) (wdataField w)) := by
  rw [decode, if_neg (by simp [hwe]), if_neg haddr]

theorem decode_of_command (hwe : weField w = true) (haddr : addrField w = 0#18) :
    decode w = decodeCommand (wdataField w) := by
  rw [decode, if_neg (by simp [hwe]), if_pos haddr]

end

@[simp] theorem decode_wordOf_read (addr : HostAddr) (d : Byte) : decode (wordOf false addr d) = .ok (.rd addr) := by
  simpa using decode_of_read (weField_wordOf false addr d)

theorem decode_wordOf_write {addr : HostAddr} (d : Byte) (haddr : addr ≠ 0#18) :
    decode (wordOf true addr d) = .ok (.wr addr d) := by
  simpa using decode_of_write (weField_wordOf true addr d) (by simpa using haddr)

@[simp] theorem decode_wordOf_command (op : Byte) : decode (wordOf true 0#18 op) = decodeCommand op := by
  simpa using decode_of_command (weField_wordOf true 0#18 op) (addrField_wordOf ..)

/-! ### The command table (30_encoding.md R74) -/

theorem decodeCommand_of_mem {c : Byte × Instr} (h : c ∈ commandTable) : decodeCommand c.1 = .ok c.2 := by
  revert c
  decide

theorem decodeCommand_eq_ok_iff {op : Byte} {i : Instr} : decodeCommand op = .ok i ↔ (op, i) ∈ commandTable := by
  refine ⟨fun h => ?_, decodeCommand_of_mem⟩
  have := decodeCommand_cases op
  simp_all [commandTable]

theorem encode_of_mem_commandTable {c : Byte × Instr} (h : c ∈ commandTable) :
    c.2.wellFormed = true ∧ encode c.2 = wordOf true 0#18 c.1 := by
  revert c
  decide

/-! ### What decodes -/

/-- Every way a word can decode to an instruction, with the word in that way's spelling. -/
theorem decode_eq_ok_cases {w : HostWord} {i : Instr} (h : decode w = .ok i) :
    (∃ addr d, w = wordOf false addr d ∧ i = .rd addr) ∨
      (∃ addr d, addr ≠ 0#18 ∧ w = wordOf true addr d ∧ i = .wr addr d) ∨
      ∃ op, (op, i) ∈ commandTable ∧ w = wordOf true 0#18 op := by
  have hw := wordOf_fields w
  cases hwe : weField w with
  | false =>
    rw [decode_of_read hwe] at h
    cases h
    exact .inl ⟨_, _, by rw [← hwe, hw], rfl⟩
  | true =>
    by_cases haddr : addrField w = 0#18
    · rw [decode_of_command hwe haddr, decodeCommand_eq_ok_iff] at h
      exact .inr (.inr ⟨_, h, by rw [← hwe, ← haddr, hw]⟩)
    · rw [decode_of_write hwe haddr] at h
      cases h
      exact .inr (.inl ⟨_, _, haddr, by rw [← hwe, hw], rfl⟩)

theorem wellFormed_of_decode {w : HostWord} {i : Instr} (h : decode w = .ok i) : i.wellFormed = true := by
  rcases decode_eq_ok_cases h with ⟨addr, d, -, rfl⟩ | ⟨addr, d, haddr, -, rfl⟩ | ⟨op, hmem, -⟩
  · rfl
  · simpa [Instr.wellFormed] using haddr
  · exact (encode_of_mem_commandTable hmem).1

/-- The canonical spelling of a read has `wdata = 0x00` (30_encoding.md R77). -/
theorem wordOf_read_and_canonicalMask (addr : HostAddr) (d : Byte) :
    wordOf false addr d &&& 0x7FFFF00#27 = wordOf false addr 0x00#8 := by
  have hwe : weField 0x7FFFF00#27 = true := by decide
  have haddr : addrField 0x7FFFF00#27 = BitVec.allOnes 18 := by decide
  have hwdata : wdataField 0x7FFFF00#27 = 0x00#8 := by decide
  exact word_ext (by simp [hwe]) (by rw [addrField_and, haddr, BitVec.and_allOnes]; simp) (by simp [hwdata])

theorem encode_of_decode {w : HostWord} {i : Instr} (h : decode w = .ok i) :
    encode i = if weField w then w else w &&& 0x7FFFF00#27 := by
  rcases decode_eq_ok_cases h with ⟨addr, d, rfl, rfl⟩ | ⟨addr, d, -, rfl, rfl⟩ | ⟨op, hmem, rfl⟩
  · simp [encode, wordOf_read_and_canonicalMask]
  · simp [encode]
  · simp [(encode_of_mem_commandTable hmem).2]

end Sys2Proof

open Sys2Proof Sys2Proof.Machine

/-- Settles O2, by the kind of instruction: each word is decoded by the step of R73 that its fields select. -/
theorem decodeEncodeRoundTrip : Obligations.DecodeEncodeRoundTrip := by
  intro i hwf
  cases i with
  | rd addr => exact decode_wordOf_read addr 0x00#8
  | wr addr d => exact decode_wordOf_write d (by simpa [Instr.wellFormed] using hwf)
  | _ => exact (decode_wordOf_command _).trans rfl

/-- Settles O3, by the ways a word can decode. -/
theorem encodeDecodeCanonicalWord : Obligations.EncodeDecodeCanonicalWord := fun _ _ h =>
  ⟨wellFormed_of_decode h, encode_of_decode h⟩

/-- Settles O1: thirteen words, each decoded by evaluation. -/
theorem spelledWordsDecode : Obligations.SpelledWordsDecode := by
  unfold Obligations.SpelledWordsDecode
  decide

/-- Settles O13: a write located at `CMD` has no result, and what decodes is well formed, as `WR CMD` is not. -/
theorem writeToCmdIsNoInstruction : Obligations.WriteToCmdIsNoInstruction := by
  refine ⟨fun s d => rfl, fun w d h => ?_⟩
  have hwf := wellFormed_of_decode h
  simp [Instr.wellFormed] at hwf

end

section
/-! The rows of the opcode table: which words each matches (30_encoding.md R73 to R75). -/

namespace Sys2Proof

/-- The row of RD: `we = 0`. -/
def rdRow : OpcodeRow := ⟨0x4000000#27, 0x0000000#27, "RD"⟩

/-- The row of WR: `we = 1`. -/
def wrRow : OpcodeRow := ⟨0x4000000#27, 0x4000000#27, "WR"⟩

/-- The row of a command fixes every bit of the word. -/
def commandRow (c : Byte × Instr) : OpcodeRow := ⟨0x7FFFFFF#27, wordOf true 0#18 c.1, c.2.mnemonic⟩

theorem opcodeRows_eq : opcodeRows = rdRow :: wrRow :: commandTable.map commandRow := by decide

theorem mem_opcodeRows {r : OpcodeRow} :
    r ∈ opcodeRows ↔ r = rdRow ∨ r = wrRow ∨ ∃ c ∈ commandTable, r = commandRow c := by
  simp only [opcodeRows_eq, List.mem_cons, List.mem_map, eq_comm]

/-- The mask of RD and WR leaves bit 26 alone. -/
theorem and_weMask (w : HostWord) : w &&& 0x4000000#27 = wordOf (weField w) 0#18 0x00#8 := by
  have hwe : weField 0x4000000#27 = true := by decide
  have haddr : addrField 0x4000000#27 = 0#18 := by decide
  have hwdata : wdataField 0x4000000#27 = 0x00#8 := by decide
  exact word_ext (by simp [hwe]) (by simp [haddr]) (by simp [hwdata])

theorem rdRow_covers (w : HostWord) : rdRow.covers w = true ↔ weField w = false := by
  rw [OpcodeRow.covers, rdRow, and_weMask]
  cases weField w <;> decide

theorem wrRow_covers (w : HostWord) : wrRow.covers w = true ↔ weField w = true := by
  rw [OpcodeRow.covers, wrRow, and_weMask]
  cases weField w <;> decide

theorem commandRow_covers (c : Byte × Instr) (w : HostWord) :
    (commandRow c).covers w = true ↔ w = wordOf true 0#18 c.1 := by
  have hones : w &&& 0x7FFFFFF#27 = w := BitVec.and_allOnes
  simp [OpcodeRow.covers, commandRow, hones]

theorem wrRow_mask_lt_commandRow_mask (c : Byte × Instr) :
    wrRow.mask &&& (commandRow c).mask = wrRow.mask ∧ wrRow.mask ≠ (commandRow c).mask := by
  refine ⟨BitVec.and_allOnes, ?_⟩
  change 0x4000000#27 ≠ 0x7FFFFFF#27
  decide

/-- `r` matches `w`, and has strictly more mask bits than every other row that does. -/
def MostSpecificRow (w : HostWord) (r : OpcodeRow) : Prop :=
  r ∈ opcodeRows ∧ r.covers w = true ∧
    ∀ r' ∈ opcodeRows, r'.covers w = true → r' = r ∨ (r'.mask &&& r.mask = r'.mask ∧ r'.mask ≠ r.mask)

/-- No other row matches a read. -/
theorem mostSpecificRow_of_read {w : HostWord} (hwe : weField w = false) : MostSpecificRow w rdRow := by
  refine ⟨mem_opcodeRows.mpr (.inl rfl), (rdRow_covers w).mpr hwe, fun r' hr' hcov => .inl ?_⟩
  rcases mem_opcodeRows.mp hr' with rfl | rfl | ⟨c, -, rfl⟩
  · rfl
  · simp [(wrRow_covers w).mp hcov] at hwe
  · simp [(commandRow_covers c w).mp hcov] at hwe

/-- The WR row is left with the words that no command row matches. -/
theorem mostSpecificRow_of_write {w : HostWord} (hwe : weField w = true)
    (hnone : ∀ c ∈ commandTable, w ≠ wordOf true 0#18 c.1) : MostSpecificRow w wrRow := by
  refine ⟨mem_opcodeRows.mpr (.inr (.inl rfl)), (wrRow_covers w).mpr hwe, fun r' hr' hcov => .inl ?_⟩
  rcases mem_opcodeRows.mp hr' with rfl | rfl | ⟨c, hc, rfl⟩
  · simp [(rdRow_covers w).mp hcov] at hwe
  · rfl
  · exact absurd ((commandRow_covers c w).mp hcov) (hnone c hc)

/-- The WR row matches a command too, by fewer bits; another command's row does not, since its opcode is another. -/
theorem mostSpecificRow_of_command {c : Byte × Instr} (hc : c ∈ commandTable) :
    MostSpecificRow (wordOf true 0#18 c.1) (commandRow c) := by
  refine ⟨mem_opcodeRows.mpr (.inr (.inr ⟨c, hc, rfl⟩)), (commandRow_covers c _).mpr rfl, fun r' hr' hcov => ?_⟩
  rcases mem_opcodeRows.mp hr' with rfl | rfl | ⟨c', hc', rfl⟩
  · simp [rdRow_covers] at hcov
  · exact .inr (wrRow_mask_lt_commandRow_mask c)
  · left
    have hop : c'.1 = c.1 := by
      simpa using congrArg wdataField ((commandRow_covers c' _).mp hcov).symm
    have hinstr : c'.2 = c.2 := by
      have := decodeCommand_of_mem hc'
      rw [hop, decodeCommand_of_mem hc] at this
      exact (Except.ok.inj this).symm
    rw [Prod.ext hop hinstr]

/-- The row of the table with the most mask bits names the instruction that the word decodes to. -/
theorem exists_mostSpecificRow (w : HostWord) :
    ∃ r, MostSpecificRow w r ∧ ∀ i, decode w = .ok i → i.mnemonic = r.mnemonic := by
  cases hwe : weField w with
  | false =>
    refine ⟨rdRow, mostSpecificRow_of_read hwe, fun i hi => ?_⟩
    rw [decode_of_read hwe] at hi
    cases hi
    rfl
  | true =>
    by_cases hcmd : ∃ c ∈ commandTable, w = wordOf true 0#18 c.1
    · obtain ⟨c, hc, rfl⟩ := hcmd
      refine ⟨commandRow c, mostSpecificRow_of_command hc, fun i hi => ?_⟩
      rw [decode_wordOf_command, decodeCommand_of_mem hc] at hi
      cases hi
      rfl
    · push Not at hcmd
      refine ⟨wrRow, mostSpecificRow_of_write hwe hcmd, fun i hi => ?_⟩
      rcases decode_eq_ok_cases hi with ⟨addr, d, rfl, -⟩ | ⟨addr, d, -, -, rfl⟩ | ⟨op, hmem, hw⟩
      · simp at hwe
      · rfl
      · exact absurd hw (hcmd _ hmem)

/-! ### The fields as the rule of R73 computes them -/

theorem weField_of_div {w : HostWord} (b : Bool) (h : w.toNat / 2 ^ 26 = b.toNat) : weField w = b := by
  rw [weField_eq]
  cases b <;> simp at h ⊢ <;> omega

theorem addrField_eq_ofNat (w : HostWord) : addrField w = BitVec.ofNat 18 (w.toNat / 2 ^ 8) :=
  BitVec.eq_of_toNat_eq (by rw [toNat_addrField, BitVec.toNat_ofNat])

theorem wdataField_eq_ofNat (w : HostWord) : wdataField w = BitVec.ofNat 8 w.toNat :=
  BitVec.eq_of_toNat_eq (by rw [toNat_wdataField, BitVec.toNat_ofNat])

theorem addrField_eq_zero_iff (w : HostWord) : addrField w = 0#18 ↔ w.toNat / 2 ^ 8 % 2 ^ 18 = 0 := by
  rw [← BitVec.toNat_inj, toNat_addrField]
  rfl

/-- The third step of R73: the six opcodes, and every other one is illegal. -/
theorem decodeCommand_eq (op : Byte) :
    decodeCommand op =
      if op.toNat = 0x01 then .ok .pack
      else if op.toNat = 0x02 then .ok .unpack
      else if op.toNat = 0x03 then .ok .raster
      else if op.toNat = 0x04 then .ok .init
      else if op.toNat = 0x05 then .ok .render
      else if op.toNat = 0x06 then .ok .commit
      else .error (.illegalCommand op) := by
  revert op
  decide

end Sys2Proof

open Sys2Proof

/-- Settles O4: the steps of R73 on the fields as numbers, and the most specific row by the way the word decodes. -/
theorem decodingTakesTheMostSpecificRow : Obligations.DecodingTakesTheMostSpecificRow := by
  intro w
  obtain ⟨r, ⟨hmem, hcov, hmost⟩, hname⟩ := exists_mostSpecificRow w
  refine ⟨fun hwe => ?read, fun hwe haddr => ?write, fun hwe haddr => ?command, r, hmem, hcov, hmost, hname⟩
  case read => rw [decode_of_read (weField_of_div false hwe), addrField_eq_ofNat]
  case write =>
    rw [decode_of_write (weField_of_div true hwe) (mt (addrField_eq_zero_iff w).mp haddr), addrField_eq_ofNat,
      wdataField_eq_ofNat]
  case command =>
    rw [decode_of_command (weField_of_div true hwe) ((addrField_eq_zero_iff w).mpr haddr), decodeCommand_eq,
      toNat_wdataField, wdataField_eq_ofNat]

end

section
/-! The loads and the frame's read-out (30_encoding.md R79), each list of accesses by the state it answers. -/

namespace Sys2Proof.Machine

/-! ### The addresses of `V` and `F` -/

theorem locate_sampleAddr (c : Config) (i : Fin 16) : locate c (AddrName.V i).addr = .sample i := by
  have haddr : (AddrName.V i).addr.toNat = 0x10 + i.val := by
    simp only [AddrName.addr, BitVec.toNat_ofNat]
    omega
  rw [locate, haddr, locateNat, if_neg (by omega), dif_pos (by omega)]
  simp

theorem locate_frameAddr (c : Config) (k : Fin 6) : locate c (AddrName.F k).addr = .frame k := by
  have haddr : (AddrName.F k).addr.toNat = 0x20 + k.val := by
    simp only [AddrName.addr, BitVec.toNat_ofNat]
    omega
  rw [locate, haddr, locateNat, if_neg (by omega), dif_neg (by omega), dif_pos (by omega)]
  simp

variable (s : State)

theorem exec_wr_sample (i : Fin 16) (d : Byte) :
    exec (.wr (AddrName.V i).addr d) s = .next ((s.setSample i (d.extractLsb' 0 3)).respond 0x00#8) :=
  execWr_of_ok (by rw [locate_sampleAddr]; rfl)

theorem exec_wr_frame (k : Fin 6) (d : Byte) :
    exec (.wr (AddrName.F k).addr d) s = .next ((s.setFrameByte k d).respond 0x00#8) :=
  execWr_of_ok (by rw [locate_frameAddr]; rfl)

theorem exec_rd_frame (k : Fin 6) : exec (.rd (AddrName.F k).addr) s = .next (s.respond s.f[k]) := by
  rw [exec, execRd, locate_frameAddr]
  rfl

/-! ### Lists of accesses -/

/-- The elements of `xs` at the indexes of `is` put into `v`. -/
def setEach {α : Type} {n : Nat} (xs : Vector α n) (is : List (Fin n)) (v : Vector α n) : Vector α n :=
  is.foldl (fun v (i : Fin n) => v.set i xs[i]) v

theorem getElem_setEach {α : Type} {n : Nat} (xs : Vector α n) (is : List (Fin n)) (v : Vector α n) (j : Fin n) :
    (setEach xs is v)[j] = if j ∈ is then xs[j] else v[j] := by
  induction is generalizing v with
  | nil => simp [setEach]
  | cons i is ih =>
    have hcons : setEach xs (i :: is) v = setEach xs is (v.set i xs[i]) := rfl
    rw [hcons, ih]
    by_cases hmem : j ∈ is
    · simp [hmem]
    · by_cases hij : j = i
      · simp [hij]
      · simp [hmem, hij, Ne.symm (Fin.val_ne_of_ne hij)]

/-- Putting in every element leaves nothing of the old vector. -/
theorem setEach_finRange {α : Type} {n : Nat} (xs v : Vector α n) : setEach xs (List.finRange n) v = xs := by
  refine Vector.ext fun j hj => ?_
  simpa using getElem_setEach xs (List.finRange n) v ⟨j, hj⟩

theorem execAll_wr_samples (samples : Vector Byte 16) (is : List (Fin 16)) :
    execAll (is.map fun i => .wr (AddrName.V i).addr samples[i]) s =
      .next { s with
        v := setEach (samples.map fun b => b.extractLsb' 0 3) is s.v
        responses := s.responses ++ is.map fun _ => { rdata := 0x00#8, err := false } } := by
  induction is generalizing s with
  | nil => simp [execAll, setEach]
  | cons i is ih =>
    rw [List.map_cons, execAll_cons_of_next (exec_wr_sample s i _), ih]
    simp [setEach, State.setSample, State.respond]

theorem execAll_wr_frame (bytes : Vector Byte 6) (ks : List (Fin 6)) :
    execAll (ks.map fun k => .wr (AddrName.F k).addr bytes[k]) s =
      .next { s with
        f := setEach bytes ks s.f
        responses := s.responses ++ ks.map fun _ => { rdata := 0x00#8, err := false } } := by
  induction ks generalizing s with
  | nil => simp [execAll, setEach]
  | cons k ks ih =>
    rw [List.map_cons, execAll_cons_of_next (exec_wr_frame s k _), ih]
    simp [setEach, State.setFrameByte, State.respond]

theorem execAll_rd_frame (ks : List (Fin 6)) :
    execAll (ks.map fun k => .rd (AddrName.F k).addr) s =
      .next { s with responses := s.responses ++ ks.map fun k => { rdata := s.f[k], err := false } } := by
  induction ks generalizing s with
  | nil => simp [execAll]
  | cons k ks ih =>
    rw [List.map_cons, execAll_cons_of_next (exec_rd_frame s k), ih]
    simp [State.respond]

/-! ### The pseudo-instructions -/

theorem execAll_ldv (samples : Vector Byte 16) :
    execAll (Pseudo.LDV samples).expand s =
      .next { s with
        v := samples.map fun b => b.extractLsb' 0 3
        responses := s.responses ++ List.replicate 16 { rdata := 0x00#8, err := false } } := by
  rw [Pseudo.expand, execAll_wr_samples, setEach_finRange]
  rfl

theorem execAll_ldf (bytes : Vector Byte 6) :
    execAll (Pseudo.LDF bytes).expand s =
      .next { s with
        f := bytes
        responses := s.responses ++ List.replicate 6 { rdata := 0x00#8, err := false } } := by
  rw [Pseudo.expand, execAll_wr_frame, setEach_finRange]
  rfl

theorem execAll_rdf :
    execAll Pseudo.RDF.expand s =
      .next { s with responses := s.responses ++ s.f.toList.map fun b => { rdata := b, err := false } } := by
  have hbytes : (List.finRange 6).map (fun k => s.f[k]) = s.f.toList := List.ext_getElem (by simp) (by simp)
  rw [Pseudo.expand, execAll_rd_frame, ← hbytes, List.map_map]
  rfl

end Sys2Proof.Machine

open Sys2Proof.Machine

/-- Settles O54: the loads and the read-out by the states they answer. -/
theorem loadsWriteWholeObjects : Obligations.LoadsWriteWholeObjects := fun s =>
  ⟨fun samples => ⟨_, execAll_ldv s samples, fun i => by simp, rfl⟩,
    fun bytes => ⟨_, execAll_ldf s bytes, rfl, rfl⟩, _, execAll_rdf s, rfl⟩

end

section
/-! Host access address by address: what RD answers and what WR stores (40_host_access.md R90, R91). -/

namespace Sys2Proof

/-! ### The words of RD and WR -/

/-- A word as the number that R71 makes of its fields. -/
theorem wordOf_eq_ofNat (we : Bool) (addr : HostAddr) (d : Byte) :
    wordOf we addr d = BitVec.ofNat 27 (we.toNat * 2 ^ 26 + addr.toNat * 2 ^ 8 + d.toNat) := by
  rw [← toNat_wordOf, BitVec.ofNat_toNat, BitVec.setWidth_eq]

theorem decode_read_number (addr : HostAddr) : decode (BitVec.ofNat 27 (addr.toNat * 2 ^ 8)) = .ok (.rd addr) := by
  have hword : wordOf false addr 0x00#8 = BitVec.ofNat 27 (addr.toNat * 2 ^ 8) := by
    simpa using wordOf_eq_ofNat false addr 0x00#8
  rw [← hword, decode_wordOf_read]

theorem decode_write_number {addr : HostAddr} (d : Byte) (haddr : addr.toNat ≠ 0x0) :
    decode (BitVec.ofNat 27 (0x4000000 + addr.toNat * 2 ^ 8 + d.toNat)) = .ok (.wr addr d) := by
  have hword : wordOf true addr d = BitVec.ofNat 27 (0x4000000 + addr.toNat * 2 ^ 8 + d.toNat) :=
    wordOf_eq_ofNat true addr d
  rw [← hword, decode_wordOf_write d (mt (congrArg BitVec.toNat) haddr)]

theorem Config.chunkMax_bounds {c : Config} (h : c.wf = true) : 1 ≤ c.chunkMax ∧ c.chunkMax ≤ 255 := by
  obtain ⟨-, hchunk, -⟩ := c.wf_iff.mp h
  exact hchunk

end Sys2Proof

namespace Sys2Proof.Machine

/-! ### The address map, range by range (20_memory.md R52)

On the register page, addresses below `0x10`, it is evaluated at each address. -/

section
variable {c : Config} {a : Nat}

theorem locateNat_sample (i : Fin 16) : locateNat c (0x10 + i.val) = .sample i := by
  rw [locateNat, if_neg (by omega), dif_pos (by omega)]
  simp

theorem locateNat_frame (k : Fin 6) : locateNat c (0x20 + k.val) = .frame k := by
  rw [locateNat, if_neg (by omega), dif_neg (by omega), dif_pos (by omega)]
  simp

theorem locateNat_gap (h : 0x26 ≤ a) (h' : a < 0x10000) : locateNat c a = .unmapped := by
  rw [locateNat, if_neg (by omega), dif_neg (by omega), dif_neg (by omega), if_pos h']

theorem locateNat_gridWindow {k : Nat} (h : k < 0x10000) :
    locateNat c (0x10000 + k) = if k < c.gridSize then .grid k else .unmapped := by
  rw [locateNat, if_neg (by omega), dif_neg (by omega), dif_neg (by omega), if_neg (by omega), if_pos (by omega),
    Nat.add_sub_cancel_left]

theorem locateNat_fbWindow (k : Nat) :
    locateNat c (0x20000 + k) = if k < c.fbSize then .fb k else .unmapped := by
  rw [locateNat, if_neg (by omega), dif_neg (by omega), dif_neg (by omega), if_neg (by omega), if_neg (by omega),
    Nat.add_sub_cancel_left]

/-- The whole of `GRID` lies inside its window, as R10 bounds it. -/
theorem locateNat_grid (hc : c.wf = true) {k : Nat} (hk : k < c.gridSize) : locateNat c (0x10000 + k) = .grid k := by
  have hsize := c.gridSize_le hc
  rw [locateNat_gridWindow (by omega), if_pos hk]

theorem locateNat_fb {k : Nat} (hk : k < c.fbSize) : locateNat c (0x20000 + k) = .fb k := by
  rw [locateNat_fbWindow, if_pos hk]

theorem locateNat_of_unmapped (h : Unmapped c a) : locateNat c a = .unmapped := by
  rcases h with rfl | ⟨hlow, hhigh⟩ | ⟨hlow, hhigh⟩ | ⟨hlow, hhigh⟩ | ⟨hlow, -⟩
  · rfl
  · interval_cases a <;> rfl
  · exact locateNat_gap hlow hhigh
  · obtain ⟨k, rfl⟩ := Nat.exists_eq_add_of_le (show 0x10000 ≤ a by omega)
    rw [locateNat_gridWindow (by omega), if_neg (by omega)]
  · obtain ⟨k, rfl⟩ := Nat.exists_eq_add_of_le (show 0x20000 ≤ a by omega)
    rw [locateNat_fbWindow, if_neg (by omega)]

end

variable {s : State} {addr : HostAddr} {d b : Byte} {a : Nat}

/-! ### RD -/

theorem execRd_of_unmapped (h : Unmapped s.cfg addr.toNat) : exec (.rd addr) s = .next (s.raise .badAddr) := by
  rw [exec, execRd, locate, locateNat_of_unmapped h]
  rfl

/-- The byte at an address is the one its location reads as. -/
theorem byte_eq_of_read {x : Byte} (hb : s.readLocation (locate s.cfg addr) = some b) (haddr : addr.toNat = a)
    (hx : s.readLocation (locateNat s.cfg a) = some x) : b = x := by
  subst haddr
  exact Option.some.inj (hb.symm.trans hx)

/-- `STATUS` as a number (10_state.md R31). -/
theorem toNat_statusByte (s : State) :
    s.statusByte.toNat = (if s.err = 0x00#8 then 0 else 4) + 2 * s.ffr.toNat + s.initd.toNat := by
  have hbits : ∀ errf ffr initd : Bool,
      (0#5 ++ BitVec.ofBool errf ++ BitVec.ofBool ffr ++ BitVec.ofBool initd).toNat =
        4 * errf.toNat + 2 * ffr.toNat + initd.toNat := by decide
  have herrf : 4 * s.errorFlag.toNat = if s.err = 0x00#8 then 0 else 4 := by
    split <;> simp [State.errorFlag, *]
  rw [State.statusByte, hbits, herrf]

/-- A parameter that R10 or R12 bounds by a byte reads back as it is. -/
theorem toNat_byte_of_read {n : Nat} (hb : s.readLocation (locate s.cfg addr) = some b) (haddr : addr.toNat = a)
    (hn : n ≤ 255) (hx : s.readLocation (locateNat s.cfg a) = some (BitVec.ofNat 8 n)) : b.toNat = n := by
  rw [byte_eq_of_read hb haddr hx, BitVec.toNat_ofNat, Nat.mod_eq_of_lt (by omega)]

/-! ### WR -/

theorem execWr_stores {t : State} (haddr : addr.toNat = a)
    (ht : s.writeLocation d (locateNat s.cfg a) = some (.ok t)) : exec (.wr addr d) s = .next (t.respond 0x00#8) := by
  subst haddr
  exact execWr_of_ok ht

theorem writeLocation_of_readOnly {c : Config} (h : ReadOnly c a) :
    s.writeLocation d (locateNat c a) = some (.error .roWrite) := by
  rcases h with rfl | ⟨hlow, hhigh⟩ | ⟨hlow, hhigh⟩
  · rfl
  · interval_cases a <;> rfl
  · obtain ⟨k, rfl⟩ := Nat.exists_eq_add_of_le hlow
    rw [locateNat_fb (by omega)]
    rfl

theorem writeLocation_of_unmapped {c : Config} (h : Unmapped c a) :
    s.writeLocation d (locateNat c a) = some (.error .badAddr) := by
  rw [locateNat_of_unmapped h]
  rfl

/-- The three low bits of a byte, as R91 computes them. -/
theorem ofNat_mod_eight_eq_extract (d : Byte) : BitVec.ofNat 3 (d.toNat % 8) = d.extractLsb' 0 3 :=
  BitVec.eq_of_toNat_eq (by simp)

end Sys2Proof.Machine

open Sys2Proof Sys2Proof.Machine

/-- Settles O11: a mapped address answers the byte of its location, which each range of the address map gives. -/
theorem readAnswersByAddress : Obligations.ReadAnswersByAddress := by
  intro s addr hc
  refine ⟨decode_read_number addr, execRd_of_unmapped, fun hmapped => ?_⟩
  obtain ⟨b, hb, he⟩ := execRd_of_mapped hmapped
  refine ⟨b, he, fun h => ?cmd, fun h => ?status, fun h => byte_eq_of_read hb h rfl,
    fun h => toNat_byte_of_read hb h (s.cfg.cols_bounds hc).2 rfl,
    fun h => toNat_byte_of_read hb h (s.cfg.rows_bounds hc).2 rfl,
    fun h => toNat_byte_of_read hb h (s.cfg.width_bounds hc).2 rfl,
    fun h => toNat_byte_of_read hb h ((s.cfg.height_bounds hc).2.1.trans (by decide)) rfl,
    fun h => toNat_byte_of_read hb h ((s.cfg.pages_bounds hc).2.trans (by decide)) rfl,
    fun h => toNat_byte_of_read hb h (s.cfg.chunkMax_bounds hc).2 rfl,
    fun i h => ?sample, fun k h => ?frame, fun k hk h => ?grid, fun k hk h => ?fb⟩
  case cmd => rw [byte_eq_of_read hb h rfl]; rfl
  case status => rw [byte_eq_of_read hb h rfl, toNat_statusByte]
  case sample =>
    rw [byte_eq_of_read hb h (congrArg s.readLocation (locateNat_sample i)),
      BitVec.toNat_setWidth_of_le (by decide)]
  case frame => exact byte_eq_of_read hb h (congrArg s.readLocation (locateNat_frame k))
  case grid => exact byte_eq_of_read hb h (congrArg s.readLocation (locateNat_grid hc hk))
  case fb => exact byte_eq_of_read hb h (congrArg s.readLocation (locateNat_fb hk))

/-- Settles O12: each range of the address map names what a write stores into, or the error that refuses it. -/
theorem writeStoresByAddress : Obligations.WriteStoresByAddress := by
  intro s addr d hc haddr
  refine ⟨decode_write_number d haddr, fun h => execWr_stores h rfl, fun i h => ?sample, fun k h => ?frame,
    fun k hk h => ?grid, fun h => execWr_of_error (writeLocation_of_readOnly h),
    fun h => execWr_of_error (writeLocation_of_unmapped h)⟩
  case sample =>
    rw [ofNat_mod_eight_eq_extract]
    exact execWr_stores h (congrArg (s.writeLocation d) (locateNat_sample i))
  case frame => exact execWr_stores h (congrArg (s.writeLocation d) (locateNat_frame k))
  case grid =>
    exact ⟨_, execWr_stores h (congrArg (s.writeLocation d) (locateNat_grid hc hk)),
      fun j => gridByte_writeGrid_one s k j d⟩

end

section
/-! The Band Codec bit by bit (41_band_codec.md R100, R103): stream bit `n` is bit `n mod 3` of sample `n div 3`, and bit
`n mod 8` of byte `n div 8`. What the codec does is read off these two names of one bit. -/

namespace Sys2Proof.Machine

/-! ### Numbers given by their digits -/

section
variable {d : Nat → Nat} {w : Nat}

theorem sum_digits_lt (h : ∀ i, d i < 2 ^ w) (n : Nat) :
    ∑ i ∈ Finset.range n, d i * (2 ^ w) ^ i < (2 ^ w) ^ n := by
  induction n with
  | zero => simp
  | succ n ih =>
    have htop : (d n + 1) * (2 ^ w) ^ n ≤ 2 ^ w * (2 ^ w) ^ n := Nat.mul_le_mul_right _ (h n)
    rw [Finset.sum_range_succ, Nat.pow_succ']
    rw [Nat.succ_mul] at htop
    omega

theorem testBit_sum_digits (h : ∀ i, d i < 2 ^ w) {n k : Nat} (hk : k < w * n) :
    (∑ i ∈ Finset.range n, d i * (2 ^ w) ^ i).testBit k = (d (k / w)).testBit (k % w) := by
  induction n with
  | zero => simp at hk
  | succ n ih =>
    have hlow := sum_digits_lt h n
    rw [← Nat.pow_mul] at hlow
    rw [Finset.sum_range_succ, ← Nat.pow_mul, Nat.add_comm, Nat.mul_comm, Nat.testBit_two_pow_mul_add _ hlow]
    split
    · next hlt => exact ih hlt
    · next hge =>
      rw [Nat.mul_succ] at hk
      obtain ⟨j, rfl⟩ := Nat.exists_eq_add_of_le (Nat.le_of_not_lt hge)
      have hj : j < w := by omega
      rw [Nat.add_sub_cancel_left, Nat.mul_add_div (by omega), Nat.div_eq_of_lt hj, Nat.mul_add_mod,
        Nat.mod_eq_of_lt hj, Nat.add_zero]

/-- `t` bits that lie in `l` consecutive digits are read off those digits alone. -/
theorem sum_digits_window (h : ∀ i, d i < 2 ^ w) {n m l r t : Nat} (hn : w * m + r + t ≤ w * n) (hl : r + t ≤ w * l) :
    (∑ i ∈ Finset.range n, d i * (2 ^ w) ^ i) / 2 ^ (w * m + r) % 2 ^ t =
      (∑ i ∈ Finset.range l, d (m + i) * (2 ^ w) ^ i) / 2 ^ r % 2 ^ t := by
  refine Nat.eq_of_testBit_eq fun j => ?_
  rw [Nat.testBit_mod_two_pow, Nat.testBit_mod_two_pow, Nat.testBit_div_two_pow, Nat.testBit_div_two_pow]
  by_cases hj : j < t
  · have hw : 0 < w := Nat.pos_of_mul_pos_right (by omega : 0 < w * l)
    rw [testBit_sum_digits h (by omega), testBit_sum_digits (fun i => h (m + i)) (by omega),
      Nat.add_left_comm, Nat.mul_add_div hw, Nat.mul_add_mod]
  · simp [hj]

end

/-- Bit `n mod w` of field `n div w` of a number cut into fields of `w` bits is its bit `n`. -/
theorem testBit_field (x w n : Nat) (hw : 0 < w) : (x / (2 ^ w) ^ (n / w) % 2 ^ w).testBit (n % w) = x.testBit n := by
  rw [Nat.testBit_mod_two_pow, decide_eq_true (Nat.mod_lt n hw), Bool.true_and, ← Nat.pow_mul, Nat.testBit_div_two_pow,
    Nat.mod_add_div]

/-- Masking to 3 bits keeps the bits of a field. -/
theorem testBit_mod_eight (x n : Nat) : (x % 8).testBit (n % 3) = x.testBit (n % 3) := by
  rw [Nat.testBit_mod_two_pow x 3, decide_eq_true (Nat.mod_lt n (by decide)), Bool.true_and]

/-! ### The two numbers and their fields -/

section
variable (v : Nat → Nat) (b : Nat → Byte)

theorem packNumber_eq_sum : packNumber v = ∑ i ∈ Finset.range 16, v i % 8 * 8 ^ i := by
  calc packNumber v
    _ = ∑ i ∈ Finset.range 16, (v i &&& 7) <<< (3 * i) := rfl
    _ = ∑ i ∈ Finset.range 16, v i % 8 * 8 ^ i := Finset.sum_congr rfl fun i _ => by
      rw [Nat.and_two_pow_sub_one_eq_mod (v i) 3, Nat.shiftLeft_eq, Nat.pow_mul]

theorem frameNumber_eq_sum : frameNumber b = ∑ k ∈ Finset.range 6, (b k).toNat * 256 ^ k := by
  calc frameNumber b
    _ = ∑ k ∈ Finset.range 6, (b k).toNat <<< (8 * k) := rfl
    _ = ∑ k ∈ Finset.range 6, (b k).toNat * 256 ^ k := Finset.sum_congr rfl fun k _ => by
      rw [Nat.shiftLeft_eq, Nat.pow_mul]

theorem toNat_packByte (k : Nat) : (packByte v k).toNat = packNumber v / 256 ^ k % 256 := by
  rw [packByte, BitVec.toNat_ofNat, Nat.and_two_pow_sub_one_eq_mod _ 8, Nat.mod_mod, Nat.shiftRight_eq_div_pow,
    Nat.pow_mul]

theorem toNat_unpackSample (i : Nat) : (unpackSample b i).toNat = frameNumber b / 8 ^ i % 8 := by
  rw [unpackSample, BitVec.toNat_ofNat, Nat.and_two_pow_sub_one_eq_mod _ 3, Nat.mod_mod, Nat.shiftRight_eq_div_pow,
    Nat.pow_mul]

/-! ### Stream bits -/

variable {n : Nat} (hn : n < 48)
include hn

/-- A stream bit of a packed frame is the bit of the sample it belongs to (R100). -/
theorem packByte_streamBit : (packByte v (n / 8)).getLsbD (n % 8) = (v (n / 3)).testBit (n % 3) := by
  have hsmall : ∀ i, v i % 8 < 2 ^ 3 := fun i => Nat.mod_lt _ (by decide)
  calc (packByte v (n / 8)).getLsbD (n % 8)
    _ = (packNumber v / 256 ^ (n / 8) % 256).testBit (n % 8) := by rw [← toNat_packByte, BitVec.testBit_toNat]
    _ = (packNumber v).testBit n := testBit_field _ 8 n (by decide)
    _ = (v (n / 3) % 8).testBit (n % 3) := by rw [packNumber_eq_sum]; exact testBit_sum_digits hsmall hn
    _ = (v (n / 3)).testBit (n % 3) := testBit_mod_eight ..

/-- A stream bit of the unpacked samples is the bit of the byte it stands in (R103). -/
theorem unpackSample_streamBit : (unpackSample b (n / 3)).getLsbD (n % 3) = (b (n / 8)).getLsbD (n % 8) := by
  calc (unpackSample b (n / 3)).getLsbD (n % 3)
    _ = (frameNumber b / 8 ^ (n / 3) % 8).testBit (n % 3) := by rw [← toNat_unpackSample, BitVec.testBit_toNat]
    _ = (frameNumber b).testBit n := testBit_field _ 3 n (by decide)
    _ = (b (n / 8)).toNat.testBit (n % 8) := by
      rw [frameNumber_eq_sum]; exact testBit_sum_digits (fun k => (b k).isLt) hn

end

/-- Two fields of width `w` are equal when the stream bits they hold as field `k` are. -/
theorem eq_of_streamBits {w : Nat} {x y : BitVec w} (k : Nat)
    (h : ∀ n, n / w = k → x.getLsbD (n % w) = y.getLsbD (n % w)) : x = y := by
  refine BitVec.eq_of_getLsbD_eq fun j hj => ?_
  have hdiv : (w * k + j) / w = k := by rw [Nat.mul_add_div (by omega), Nat.div_eq_of_lt hj, Nat.add_zero]
  have hmod : (w * k + j) % w = j := by rw [Nat.mul_add_mod, Nat.mod_eq_of_lt hj]
  simpa only [hmod] using h _ hdiv

/-! ### The codec as a function on samples and bytes -/

section
variable {v v' : Nat → Nat} {b b' : Nat → Byte} {i k : Nat}

/-- A sample depends on the one or two bytes its field meets (R107). -/
theorem unpackSample_congr (hi : i < 16) (hlow : b (3 * i / 8) = b' (3 * i / 8))
    (hhigh : b ((3 * i + 2) / 8) = b' ((3 * i + 2) / 8)) : unpackSample b i = unpackSample b' i := by
  refine eq_of_streamBits i ?_
  rintro n rfl
  rw [unpackSample_streamBit b (by omega), unpackSample_streamBit b' (by omega)]
  have hbyte : n / 8 = 3 * (n / 3) / 8 ∨ n / 8 = (3 * (n / 3) + 2) / 8 := by omega
  rcases hbyte with h | h
  · rw [h, hlow]
  · rw [h, hhigh]

/-- A byte depends on the samples, masked, whose fields meet it (R107). -/
theorem packByte_congr (hk : k < 6)
    (h : ∀ i, i < 16 → 3 * i < 8 * k + 8 → 8 * k ≤ 3 * i + 2 → v i % 8 = v' i % 8) : packByte v k = packByte v' k := by
  refine eq_of_streamBits k ?_
  rintro n rfl
  rw [packByte_streamBit v (by omega), packByte_streamBit v' (by omega), ← testBit_mod_eight,
    h (n / 3) (by omega) (by omega) (by omega), testBit_mod_eight]

/-- Sample `i` comes back as its three low bits (R105). -/
theorem unpackSample_packByte (v : Nat → Nat) (hi : i < 16) : unpackSample (packByte v) i = BitVec.ofNat 3 (v i) := by
  refine eq_of_streamBits i ?_
  rintro n rfl
  rw [unpackSample_streamBit _ (by omega), packByte_streamBit v (by omega), BitVec.getLsbD_ofNat,
    decide_eq_true (Nat.mod_lt n (by decide)), Bool.true_and]

/-- Byte `k` comes back as it was (R106). -/
theorem packByte_unpackSample (b : Nat → Byte) (hk : k < 6) : packByte (fun i => (unpackSample b i).toNat) k = b k := by
  refine eq_of_streamBits k ?_
  rintro n rfl
  rw [packByte_streamBit _ (by omega), BitVec.testBit_toNat, unpackSample_streamBit b (by omega)]

/-- The two-byte form of `unpack` (R103): a field lies in its byte and the one after it. -/
theorem toNat_unpackSample_window (b : Nat → Byte) (hi : i < 16) :
    (unpackSample b i).toNat = ((b (3 * i / 8)).toNat + (b (3 * i / 8 + 1)).toNat * 256) / 2 ^ (3 * i % 8) % 8 := by
  have hwindow := sum_digits_window (w := 8) (fun k => (b k).isLt) (n := 6) (m := 3 * i / 8) (l := 2) (r := 3 * i % 8)
    (t := 3) (by omega) (by omega)
  rw [Nat.div_add_mod, Nat.pow_mul] at hwindow
  rw [toNat_unpackSample, frameNumber_eq_sum]
  simpa [Finset.sum_range_succ] using hwindow

/-- A byte lies in four consecutive samples, from the one its lowest bit is of (R102). -/
theorem toNat_packByte_window (v : Nat → Nat) (hk : k < 6) {m r : Nat} (hr : r < 3) (hm : 3 * m + r = 8 * k) :
    (packByte v k).toNat =
      (v m % 8 + v (m + 1) % 8 * 8 + v (m + 2) % 8 * 64 + v (m + 3) % 8 * 512) / 2 ^ r % 256 := by
  have hwindow := sum_digits_window (w := 3) (d := fun i => v i % 8) (fun i => Nat.mod_lt _ (by decide)) (n := 16)
    (m := m) (l := 4) (r := r) (t := 8) (by omega) (by omega)
  rw [hm, Nat.pow_mul] at hwindow
  rw [toNat_packByte, packNumber_eq_sum]
  simpa [Finset.sum_range_succ] using hwindow

/-! The three layouts of R102, by the bit of sample `m` that the byte begins with. -/

section
variable {m : Nat} (hv : ∀ i, v i ≤ 7) (hk : k < 6)
include hv hk

theorem toNat_packByte_from_bit_zero (hm : 3 * m = 8 * k) :
    (packByte v k).toNat = v (m + 2) % 4 * 2 ^ 6 + v (m + 1) * 2 ^ 3 + v m := by
  have h0 := hv m
  have h1 := hv (m + 1)
  rw [toNat_packByte_window v hk (m := m) (r := 0) (by decide) hm]
  omega

theorem toNat_packByte_from_bit_one (hm : 3 * m + 1 = 8 * k) :
    (packByte v k).toNat = v (m + 2) * 2 ^ 5 + v (m + 1) * 2 ^ 2 + v m / 2 := by
  have h0 := hv m
  have h1 := hv (m + 1)
  have h2 := hv (m + 2)
  rw [toNat_packByte_window v hk (by decide) hm]
  omega

theorem toNat_packByte_from_bit_two (hm : 3 * m + 2 = 8 * k) :
    (packByte v k).toNat = v (m + 3) % 2 * 2 ^ 7 + v (m + 2) * 2 ^ 4 + v (m + 1) * 2 + v m / 4 := by
  have h0 := hv m
  have h1 := hv (m + 1)
  have h2 := hv (m + 2)
  rw [toNat_packByte_window v hk (by decide) hm]
  omega

end

end

/-! ### The codec on the registers -/

/-- The frame PACK writes. -/
def packVector (v : Vector Sample 16) : Vector Byte 6 :=
  Vector.ofFn fun k => packByte (fun i => (v.getD i 0#3).toNat) k.val

/-- The samples UNPACK writes. -/
def unpackVector (f : Vector Byte 6) : Vector Sample 16 :=
  Vector.ofFn fun i => unpackSample (fun k => f.getD k 0x00#8) i.val

theorem exec_pack_eq (s : State) : exec .pack s = .next { s.answered 0x00#8 with f := packVector s.v } := rfl

theorem exec_unpack_eq (s : State) : exec .unpack s = .next { s.answered 0x00#8 with v := unpackVector s.f } := rfl

theorem getElem_packVector (v : Vector Sample 16) (k : Fin 6) :
    (packVector v)[k] = packByte (fun i => (v.getD i 0#3).toNat) k.val := by
  simp [packVector]

theorem getElem_unpackVector (f : Vector Byte 6) (i : Fin 16) :
    (unpackVector f)[i] = unpackSample (fun k => f.getD k 0x00#8) i.val := by
  simp [unpackVector]

theorem getD_eq_getElem {α : Type} {n : Nat} (xs : Vector α n) (i : Fin n) (x : α) : xs.getD i.val x = xs[i] := by
  simp [Vector.getD]

theorem unpackVector_packVector (v : Vector Sample 16) : unpackVector (packVector v) = v := by
  refine Vector.ext fun i hi => ?_
  have hbytes : ∀ k, k < 6 → (packVector v).getD k 0x00#8 = packByte (fun i => (v.getD i 0#3).toNat) k := fun k hk =>
    (getD_eq_getElem _ ⟨k, hk⟩ _).trans (getElem_packVector v ⟨k, hk⟩)
  calc (unpackVector (packVector v))[i]
    _ = unpackSample (fun k => (packVector v).getD k 0x00#8) i := getElem_unpackVector _ ⟨i, hi⟩
    _ = unpackSample (packByte fun i => (v.getD i 0#3).toNat) i :=
      unpackSample_congr hi (hbytes _ (by omega)) (hbytes _ (by omega))
    _ = BitVec.ofNat 3 (v.getD i 0#3).toNat := unpackSample_packByte _ hi
    _ = v[i] := by rw [BitVec.ofNat_toNat, BitVec.setWidth_eq]; exact getD_eq_getElem v ⟨i, hi⟩ _

theorem packVector_unpackVector (f : Vector Byte 6) : packVector (unpackVector f) = f := by
  refine Vector.ext fun k hk => ?_
  have hsamples : ∀ i, i < 16 → (unpackVector f).getD i 0#3 = unpackSample (fun k => f.getD k 0x00#8) i := fun i hi =>
    (getD_eq_getElem _ ⟨i, hi⟩ _).trans (getElem_unpackVector f ⟨i, hi⟩)
  calc (packVector (unpackVector f))[k]
    _ = packByte (fun i => ((unpackVector f).getD i 0#3).toNat) k := getElem_packVector _ ⟨k, hk⟩
    _ = packByte (fun i => (unpackSample (fun k => f.getD k 0x00#8) i).toNat) k :=
      packByte_congr hk fun i hi _ _ => by simp only [hsamples i hi]
    _ = f.getD k 0x00#8 := packByte_unpackSample _ hk
    _ = f[k] := getD_eq_getElem f ⟨k, hk⟩ _

end Sys2Proof.Machine

open Sys2Proof Sys2Proof.Machine

/-- Settles O19: the digits of the number are the masked samples, and its stream bits those of the bytes. -/
theorem packIsTheBitstream : Obligations.PackIsTheBitstream := by
  intro v
  refine ⟨sum_digits_lt (w := 3) (n := 16) fun i => Nat.mod_lt _ (by decide), fun k _ => ?_, fun i j hi hj => ?_⟩
  · rw [toNat_packByte, packNumber_eq_sum]
  · have hdiv : (3 * i + j) / 3 = i := by omega
    have hmod : (3 * i + j) % 3 = j := by omega
    rw [packByte_streamBit v (by omega), hdiv, hmod]

/-- Settles O20: PACK writes the frame packed from the samples, each already below 8. -/
theorem packWritesTheFrame : Obligations.PackWritesTheFrame := by
  refine ⟨by decide, fun s => ⟨packVector s.v, exec_pack_eq s, fun k => ?_⟩⟩
  rw [getElem_packVector, toNat_packByte, packNumber_eq_sum, Finset.sum_range]
  refine congrArg (· / 256 ^ k.val % 256) (Finset.sum_congr rfl fun i _ => ?_)
  rw [getD_eq_getElem, Nat.mod_eq_of_lt (s.v[i]).isLt]

/-- Settles O21: bytes 0 and 3 begin with bit 0 of samples 0 and 8, bytes 1 and 4 with bit 2 of samples 2 and 10, bytes 2
and 5 with bit 1 of samples 5 and 13. -/
theorem frameByteLayout : Obligations.FrameByteLayout := fun _ hv =>
  ⟨toNat_packByte_from_bit_zero (m := 0) (k := 0) hv (by decide) rfl,
    toNat_packByte_from_bit_two (m := 2) (k := 1) hv (by decide) rfl,
    toNat_packByte_from_bit_one (m := 5) (k := 2) hv (by decide) rfl,
    toNat_packByte_from_bit_zero (m := 8) (k := 3) hv (by decide) rfl,
    toNat_packByte_from_bit_two (m := 10) (k := 4) hv (by decide) rfl,
    toNat_packByte_from_bit_one (m := 13) (k := 5) hv (by decide) rfl⟩

/-- Settles O22: both forms read the two-byte window of the field. -/
theorem unpackReadsTheFields : Obligations.UnpackReadsTheFields := by
  intro b i hi
  have hlow := (b (3 * i / 8)).isLt
  have hwindow := toNat_unpackSample_window b hi
  refine ⟨by rw [toNat_unpackSample, frameNumber_eq_sum], fun ho => ?_, fun ho => ?_, fun ho => ?_, by omega⟩
  · rw [hwindow]
    interval_cases 3 * i % 8 <;> omega
  · rw [hwindow, ho]
    omega
  · rw [hwindow, ho]
    omega

/-- Settles O23: UNPACK writes the samples unpacked from the frame. -/
theorem unpackWritesTheSamples : Obligations.UnpackWritesTheSamples := by
  refine ⟨by decide, fun s => ⟨unpackVector s.f, exec_unpack_eq s, fun i => ?_⟩⟩
  rw [getElem_unpackVector, toNat_unpackSample, frameNumber_eq_sum, Finset.sum_range]
  refine congrArg (· / 8 ^ i.val % 8) (Finset.sum_congr rfl fun k _ => ?_)
  rw [getD_eq_getElem]

/-- Settles O24: the two names of a stream bit give the round trip; a byte sees only the masked samples. -/
theorem unpackInvertsPack : Obligations.UnpackInvertsPack := by
  have hround : ∀ (v : Nat → Nat) (i : Nat), i < 16 → (unpackSample (packByte v) i).toNat = v i % 8 := fun v i hi => by
    rw [unpackSample_packByte v hi, BitVec.toNat_ofNat]
  refine ⟨hround, fun v i hi hv => ?_, fun v v' h k hk => ?_, fun s => ⟨_, _, exec_pack_eq s, exec_unpack_eq _, ?_⟩⟩
  · rw [hround v i hi, Nat.mod_eq_of_lt (Nat.lt_succ_of_le hv)]
  · exact packByte_congr hk fun i hi _ _ => by rw [h i hi, Nat.mod_mod]
  · exact unpackVector_packVector s.v

/-- Settles O25: a vector is the unpacked frame it packs to, so there is exactly one. -/
theorem packInvertsUnpack : Obligations.PackInvertsUnpack := by
  refine ⟨fun b k hk => packByte_unpackSample b hk, fun b => ⟨unpackVector b, fun k => ?_, fun v hv => ?_⟩,
    fun s => ⟨_, _, exec_unpack_eq s, exec_pack_eq _, packVector_unpackVector s.f⟩⟩
  · rw [← getElem_packVector, packVector_unpackVector]
  · have hpack : packVector v = b := Vector.ext fun k hk => (getElem_packVector v ⟨k, hk⟩).trans (hv ⟨k, hk⟩)
    rw [← hpack, unpackVector_packVector]

/-- Settles O26: each stream bit of a field is one bit of one of the lanes the field meets. -/
theorem codecLanesAreIndependent : Obligations.CodecLanesAreIndependent :=
  ⟨fun _ _ _ => unpackSample_congr, fun _ _ _ => packByte_congr⟩

end

section
/-! The Rasterizer (42_rasterizer.md R110 to R112): the loop of R110 sets the cells of one list, the closed form says which
cells are in it. -/

namespace Sys2Proof.Machine

variable {c : Config} {sample : Nat → Nat}

/-! ### Byte lists with some bytes set -/

theorem bytesOf_congr {n : Nat} {f g : Nat → Byte} (h : ∀ k, k < n → f k = g k) : bytesOf n f = bytesOf n g :=
  List.map_congr_left fun k hk => h k (List.mem_range.mp hk)

theorem replicate_eq_bytesOf (n : Nat) (b : Byte) : List.replicate n b = bytesOf n fun _ => b := by
  simp [bytesOf]

theorem set_bytesOf (n : Nat) (f : Nat → Byte) (i : Nat) (b : Byte) :
    (bytesOf n f).set i b = bytesOf n fun k => if k = i then b else f k := by
  refine List.ext_getElem (by simp) fun k _ _ => ?_
  simp [bytesOf, List.getElem_set, eq_comm]

/-- Setting the bytes of a list of indexes one after the other sets exactly the indexes in the list. -/
theorem foldl_set_bytesOf (n : Nat) (is : List Nat) (f : Nat → Byte) (b : Byte) :
    is.foldl (fun g i => g.set i b) (bytesOf n f) = bytesOf n fun k => if k ∈ is then b else f k := by
  induction is generalizing f with
  | nil => simp
  | cons i is ih =>
    rw [List.foldl_cons, set_bytesOf, ih]
    refine bytesOf_congr fun k _ => ?_
    by_cases hk : k ∈ is <;> simp [hk]

/-! ### The cells the loop sets -/

/-- The indexes the loop of 42_rasterizer.md R110 sets, in its order. -/
def barIndices (c : Config) (sample : Nat → Nat) : List Nat :=
  (List.range (min c.cols 16)).flatMap fun x =>
    (List.range (min c.rows (sample x))).map fun r => (c.rows - 1 - r) * c.cols + x

theorem rasterLoop_eq_foldl_barIndices :
    rasterLoop c sample =
      (barIndices c sample).foldl (fun g i => g.set i 0x01#8) (bytesOf c.gridSize fun _ => 0x00#8) := by
  rw [rasterLoop, barIndices, List.foldl_flatMap, replicate_eq_bytesOf]
  simp only [List.foldl_map]

/-- The column of cell `(x, y)`'s index. -/
theorem cell_mod_cols {x : Nat} (hx : x < c.cols) (y : Nat) : (y * c.cols + x) % c.cols = x := by
  rw [Nat.mul_add_mod_self_right, Nat.mod_eq_of_lt hx]

/-- The row of cell `(x, y)`'s index. -/
theorem cell_div_cols {x : Nat} (hx : x < c.cols) (y : Nat) : (y * c.cols + x) / c.cols = y := by
  rw [Nat.mul_comm, Nat.mul_add_div (Nat.zero_lt_of_lt hx), Nat.div_eq_of_lt hx, Nat.add_zero]

/-- The loop sets index `k` exactly when its column is below 16 and its row is in the column's bar. -/
theorem mem_barIndices {k : Nat} (hk : k < c.gridSize) :
    k ∈ barIndices c sample ↔ k % c.cols < 16 ∧ c.rows - min c.rows (sample (k % c.cols)) ≤ k / c.cols := by
  have hcols : 0 < c.cols := Nat.pos_of_mul_pos_right (Nat.zero_lt_of_lt hk)
  have hrow : k / c.cols < c.rows := Nat.div_lt_of_lt_mul hk
  simp only [barIndices, List.mem_flatMap, List.mem_map, List.mem_range]
  constructor
  · rintro ⟨x, hx, r, hr, rfl⟩
    have hx' : x < c.cols := by omega
    rw [cell_mod_cols hx', cell_div_cols hx']
    omega
  · rintro ⟨hcol, hbar⟩
    have hmod := Nat.mod_lt k hcols
    refine ⟨k % c.cols, by omega, c.rows - 1 - k / c.cols, by omega, ?_⟩
    rw [show c.rows - 1 - (c.rows - 1 - k / c.cols) = k / c.cols by omega, Nat.mul_comm, Nat.div_add_mod]

theorem rasterLoop_eq_bytesOf : rasterLoop c sample = bytesOf c.gridSize (rasterByte c sample) := by
  rw [rasterLoop_eq_foldl_barIndices, foldl_set_bytesOf]
  refine bytesOf_congr fun k hk => ?_
  simp only [mem_barIndices hk, rasterByte, rasterCell]

/-! ### One cell -/

theorem rasterByte_cell {x : Nat} (hx : x < c.cols) (y : Nat) :
    rasterByte c sample (y * c.cols + x) = rasterCell c sample x y := by
  rw [rasterByte, cell_mod_cols hx, cell_div_cols hx]

theorem rasterCell_ne_zero_iff {x y : Nat} :
    rasterCell c sample x y ≠ 0x00#8 ↔ x < 16 ∧ c.rows - min c.rows (sample x) ≤ y :=
  ite_ne_right_iff.trans (and_iff_left (by decide))

theorem rasterCell_of_column_ge {x : Nat} (hx : 16 ≤ x) (y : Nat) : rasterCell c sample x y = 0x00#8 :=
  if_neg fun ⟨hlt, _⟩ => Nat.not_lt.mpr hx hlt

theorem length_filter_le_range (n l : Nat) : ((List.range n).filter fun y => l ≤ y).length = n - l := by
  rw [← List.Ico.zero_bot, List.Ico.filter_le, List.Ico.length, Nat.zero_max]

/-! ### RASTER -/

variable {s : State}

theorem exec_raster_eq (s : State) : exec .raster s = .next { s.answered 0x00#8 with grid := (rastered s).grid } := rfl

theorem sampleNat_eq {x : Nat} (hx : x < 16) : s.sampleNat x = (s.v[x]).toNat :=
  congrArg BitVec.toNat (getD_eq_getElem s.v ⟨x, hx⟩ 0#3)

/-- RASTER writes nothing past the last cell of `GRID`. -/
theorem rastered_gridByte_of_ge {k : Nat} (hk : s.cfg.gridSize ≤ k) : (rastered s).gridByte k = s.gridByte k :=
  (gridByte_writeGrid ..).trans (if_neg (by omega))

end Sys2Proof.Machine

open Sys2Proof Sys2Proof.Machine

/-- Settles O27: the loop sets the indexes in the bars, which are those the closed form draws. -/
theorem rasterLoopIsTheClosedForm : Obligations.RasterLoopIsTheClosedForm := by
  intro c sample
  rw [rasterLoop_eq_bytesOf]
  refine ⟨length_bytesOf .., fun x y hx hy => ?_, rfl⟩
  rw [getElem?_bytesOf _ _ _ (c.cell_lt_gridSize hx hy), rasterByte_cell hx, rasterCell]

/-- Settles O28: every cell of `GRID` is written from the closed form. -/
theorem rasterDrawsTheBars : Obligations.RasterDrawsTheBars := by
  refine ⟨by decide, fun s => ⟨(rastered s).grid, exec_raster_eq s, fun x y hx hy => ?_,
    fun k hk => rastered_gridByte_of_ge hk⟩⟩
  have hcell : (rastered s).gridByte (y * s.cfg.cols + x) = rasterCell s.cfg s.sampleNat x y :=
    (rastered_gridByte (Config.cell_lt_gridSize hx hy)).trans (rasterByte_cell hx y)
  refine hcell.trans ?_
  by_cases h : x < 16
  · simp [rasterCell, h, sampleNat_eq h]
  · rw [dif_neg h, rasterCell_of_column_ge (Nat.not_lt.mp h)]

/-- Settles O29: a bar is the rows from `ROWS - min(ROWS, s[x])` down, and a larger sample starts no lower. -/
theorem barHeights : Obligations.BarHeights := by
  refine fun c x => ⟨fun sample hx => ?_, fun sample sample' hle y => ?_, fun hx _ y => rasterCell_of_column_ge hx y⟩
  · have hset : ∀ y, (rasterCell c sample x y != 0x00#8) = decide (c.rows - min c.rows (sample x) ≤ y) := fun y => by
      rw [Bool.eq_iff_iff, bne_iff_ne, decide_eq_true_iff, rasterCell_ne_zero_iff, and_iff_right hx]
    rw [List.filter_congr fun y _ => hset y, length_filter_le_range]
    omega
  · rw [rasterCell_ne_zero_iff, rasterCell_ne_zero_iff]
    omega

end

section
/-! The page function (43_display_init_and_pager.md R124, R127 to R129): the loops of R124 light the pixels of one list, the
closed form says which pixels are in it. -/

namespace Sys2Proof

variable {c : Config}

/-! ### The geometry of blocks and of the framebuffer -/

/-- Every block lies inside the device's columns (R127). -/
theorem Config.cols_mul_bw_le (c : Config) : c.cols * c.bw ≤ c.width := Nat.mul_div_le ..

/-- Every block lies inside the device's rows (R127). -/
theorem Config.rows_mul_bh_le (c : Config) : c.rows * c.bh ≤ c.height := Nat.mul_div_le ..

section
variable {px : Nat} (hx : px < c.width)
include hx

/-- The page of device pixel `(px, py)`'s byte. -/
theorem Config.pixel_div_width (py : Nat) : (py / 8 * c.width + px) / c.width = py / 8 :=
  (Machine.page_index (Nat.zero_lt_of_lt hx)).mp ⟨Nat.le_add_right .., Nat.add_lt_add_left hx _⟩

/-- The column of device pixel `(px, py)`'s byte. -/
theorem Config.pixel_mod_width (py : Nat) : (py / 8 * c.width + px) % c.width = px := by
  rw [Nat.mul_add_mod_self_right, Nat.mod_eq_of_lt hx]

/-- The byte of a device pixel is inside `FB`. -/
theorem Config.pixel_lt_fbSize (hc : c.wf = true) {py : Nat} (hy : py < c.height) :
    py / 8 * c.width + px < c.fbSize := by
  have hpage : py / 8 < c.pages := by
    have := c.height_bounds hc
    unfold Config.pages
    omega
  exact (Nat.add_lt_add_left hx _).trans_le (Config.page_end_le_fbSize hpage)

/-- Bit `j` of byte `k` is device pixel `(px, py)` exactly when `k` is the pixel's byte and `j` its bit (10_state.md R25). -/
theorem Config.pixel_eq_iff {k j py : Nat} (hj : j < 8) :
    (k % c.width, 8 * (k / c.width) + j) = (px, py) ↔ k = py / 8 * c.width + px ∧ j = py % 8 := by
  rw [Prod.mk.injEq]
  constructor
  · rintro ⟨rfl, rfl⟩
    have hdiv : (8 * (k / c.width) + j) / 8 = k / c.width := by omega
    exact ⟨by rw [hdiv, Nat.div_add_mod'], by omega⟩
  · rintro ⟨rfl, rfl⟩
    rw [Config.pixel_mod_width hx, Config.pixel_div_width hx]
    exact ⟨rfl, Nat.div_add_mod ..⟩

end

end Sys2Proof

namespace Sys2Proof.Machine

variable {c : Config} {g : Nat → Byte}

/-! ### Framebuffers by their lit pixels -/

/-- Byte `k` of the framebuffer whose lit pixels are `lit` (10_state.md R25). -/
def canvasByte (c : Config) (lit : Nat → Nat → Bool) (k : Nat) : Byte :=
  BitVec.ofNat 8 ((List.range 8).map fun j => (lit (k % c.width) (8 * (k / c.width) + j)).toNat <<< j).sum

/-- The framebuffer whose lit pixels are `lit`. -/
def canvas (c : Config) (lit : Nat → Nat → Bool) : List Byte := bytesOf c.fbSize (canvasByte c lit)

theorem pageByte_eq_canvasByte (c : Config) (g : Nat → Byte) : pageByte c g = canvasByte c (pixelLit c g) := rfl

theorem getLsbD_sum_bits (bit : Nat → Bool) {j : Nat} (hj : j < 8) :
    (BitVec.ofNat 8 ((List.range 8).map fun i => (bit i).toNat <<< i).sum).getLsbD j = bit j := by
  have hsum : ((List.range 8).map fun i => (bit i).toNat <<< i).sum =
      ∑ i ∈ Finset.range 8, (bit i).toNat * (2 ^ 1) ^ i := by
    simp only [Nat.shiftLeft_eq, Nat.pow_one]
    rfl
  rw [BitVec.getLsbD_ofNat, hsum, testBit_sum_digits (fun i => (bit i).toNat_lt) (by omega), Nat.div_one, Nat.mod_one,
    Nat.testBit_bool_toNat]
  simp [hj]

theorem getLsbD_canvasByte (lit : Nat → Nat → Bool) (c : Config) (k : Nat) {j : Nat} (hj : j < 8) :
    (canvasByte c lit k).getLsbD j = lit (k % c.width) (8 * (k / c.width) + j) :=
  getLsbD_sum_bits (fun j => lit (k % c.width) (8 * (k / c.width) + j)) hj

theorem canvasByte_dark (c : Config) (k : Nat) : canvasByte c (fun _ _ => false) k = 0x00#8 :=
  BitVec.eq_of_getLsbD_eq fun _ hj => by rw [getLsbD_canvasByte _ c k hj, BitVec.getLsbD_zero]

/-- Two sets of pixels that agree on the device give the same framebuffer: it holds no pixel beyond the device's. -/
theorem canvas_congr (hc : c.wf = true) {lit lit' : Nat → Nat → Bool}
    (h : ∀ px py, px < c.width → py < c.height → lit px py = lit' px py) : canvas c lit = canvas c lit' := by
  refine bytesOf_congr fun k hk => BitVec.eq_of_getLsbD_eq fun j hj => ?_
  have hpage : k / c.width < c.height / 8 := Config.page_lt_of_lt_fbSize hk
  rw [getLsbD_canvasByte _ c k hj, getLsbD_canvasByte _ c k hj]
  exact h _ _ (Nat.mod_lt _ (c.width_bounds hc).1) (by omega)

/-! ### Lighting pixels -/

/-- The innermost statement of R124: light one pixel, clipped to the device. -/
def lightPixel (c : Config) (fb : List Byte) (q : Nat × Nat) : List Byte :=
  if q.1 < c.width ∧ q.2 < c.height then
    fb.modify (q.2 / 8 * c.width + q.1) fun byte => byte ||| BitVec.ofNat 8 (1 <<< (q.2 % 8))
  else fb

theorem modify_bytesOf (n : Nat) (f : Nat → Byte) (i : Nat) (h : Byte → Byte) :
    (bytesOf n f).modify i h = bytesOf n fun k => if k = i then h (f k) else f k := by
  refine List.ext_getElem (by simp) fun k _ _ => ?_
  simp [bytesOf, List.getElem_modify, eq_comm]

theorem getLsbD_one_shiftLeft {j : Nat} (hj : j < 8) (r : Nat) :
    (BitVec.ofNat 8 (1 <<< r)).getLsbD j = decide (j = r) := by
  rw [BitVec.getLsbD_ofNat, decide_eq_true hj, Bool.true_and, Nat.one_shiftLeft, Nat.testBit_two_pow]
  exact decide_eq_decide.mpr eq_comm

theorem lightPixel_canvas (hc : c.wf = true) (lit : Nat → Nat → Bool) (q : Nat × Nat) :
    lightPixel c (canvas c lit) q = canvas c fun px py => lit px py || decide ((px, py) = q) := by
  by_cases hq : q.1 < c.width ∧ q.2 < c.height
  · rw [lightPixel, if_pos hq, canvas, modify_bytesOf]
    refine bytesOf_congr fun k _ => BitVec.eq_of_getLsbD_eq fun j hj => ?_
    simp only [getLsbD_canvasByte _ c k hj, Config.pixel_eq_iff hq.1 hj]
    by_cases hk : k = q.2 / 8 * c.width + q.1
    · rw [if_pos hk, BitVec.getLsbD_or, getLsbD_canvasByte _ c k hj, getLsbD_one_shiftLeft hj]
      simp only [hk, true_and]
    · simp [hk, getLsbD_canvasByte _ c k hj]
  · rw [lightPixel, if_neg hq]
    refine canvas_congr hc fun px py hx hy => ?_
    have hne : (px, py) ≠ q := by
      rintro rfl
      exact hq ⟨hx, hy⟩
    simp [hne]

theorem foldl_lightPixel_canvas (hc : c.wf = true) (qs : List (Nat × Nat)) (lit : Nat → Nat → Bool) :
    qs.foldl (lightPixel c) (canvas c lit) = canvas c fun px py => lit px py || decide ((px, py) ∈ qs) := by
  induction qs generalizing lit with
  | nil => simp
  | cons q qs ih =>
    rw [List.foldl_cons, lightPixel_canvas hc, ih]
    simp [Bool.or_assoc]

/-! ### The pixels the loops light -/

/-- The pixels of one cell's block, in the order of the two inner loops of R124. -/
def blockPixels (c : Config) (cx cy : Nat) : List (Nat × Nat) :=
  (List.range c.bh).flatMap fun dy => (List.range c.bw).map fun dx => (cx * c.bw + dx, cy * c.bh + dy)

/-- The pixels of the set cells, in the order of the loops of R124. -/
def drawnPixels (c : Config) (g : Nat → Byte) : List (Nat × Nat) :=
  (List.range c.rows).flatMap fun cy =>
    ((List.range c.cols).filter fun cx => g (cy * c.cols + cx) ≠ 0x00#8).flatMap fun cx => blockPixels c cx cy

theorem drawCell_eq_foldl_blockPixels (cx cy : Nat) (fb : List Byte) :
    drawCell c cx cy fb = (blockPixels c cx cy).foldl (lightPixel c) fb := by
  rw [blockPixels, List.foldl_flatMap]
  simp only [List.foldl_map]
  rfl

theorem pageLoop_eq_foldl_drawnPixels :
    pageLoop c g = (drawnPixels c g).foldl (lightPixel c) (canvas c fun _ _ => false) := by
  rw [pageLoop, drawnPixels, replicate_eq_bytesOf, canvas, funext (canvasByte_dark c)]
  simp only [List.foldl_flatMap, List.foldl_filter, drawCell_eq_foldl_blockPixels, decide_eq_true_iff]

/-- The offsets of one block reach exactly the positions that divide down to it. -/
theorem exists_offset_iff {n i p : Nat} : (∃ d, d < n ∧ i * n + d = p) ↔ 1 ≤ n ∧ p / n = i := by
  constructor
  · rintro ⟨d, hd, rfl⟩
    have hn : 1 ≤ n := Nat.one_le_of_lt hd
    exact ⟨hn, (page_index hn).mp ⟨Nat.le_add_right .., Nat.add_lt_add_left hd _⟩⟩
  · rintro ⟨hn, hdiv⟩
    have hp := (page_index hn).mpr hdiv
    exact ⟨p - i * n, by omega, by omega⟩

theorem mem_blockPixels {cx cy px py : Nat} :
    (px, py) ∈ blockPixels c cx cy ↔ (1 ≤ c.bw ∧ px / c.bw = cx) ∧ 1 ≤ c.bh ∧ py / c.bh = cy := by
  rw [← exists_offset_iff, ← exists_offset_iff]
  simp only [blockPixels, List.mem_flatMap, List.mem_map, List.mem_range, Prod.mk.injEq]
  constructor
  · rintro ⟨dy, hdy, dx, hdx, hpx, hpy⟩
    exact ⟨⟨dx, hdx, hpx⟩, dy, hdy, hpy⟩
  · rintro ⟨⟨dx, hdx, hpx⟩, dy, hdy, hpy⟩
    exact ⟨dy, hdy, dx, hdx, hpx, hpy⟩

/-- The closed form of R124. -/
theorem pixelLit_iff {px py : Nat} :
    pixelLit c g px py = true ↔ 1 ≤ c.bw ∧ 1 ≤ c.bh ∧ px / c.bw < c.cols ∧ py / c.bh < c.rows ∧
      g (py / c.bh * c.cols + px / c.bw) ≠ 0x00#8 := by
  simp [pixelLit, and_assoc]

theorem mem_drawnPixels {px py : Nat} : (px, py) ∈ drawnPixels c g ↔ pixelLit c g px py = true := by
  simp only [drawnPixels, List.mem_flatMap, List.mem_filter, List.mem_range, mem_blockPixels, decide_eq_true_iff,
    pixelLit_iff]
  constructor
  · rintro ⟨_, hcy, _, ⟨hcx, hset⟩, ⟨hbw, rfl⟩, hbh, rfl⟩
    exact ⟨hbw, hbh, hcx, hcy, hset⟩
  · rintro ⟨hbw, hbh, hcx, hcy, hset⟩
    exact ⟨_, hcy, _, ⟨hcx, hset⟩, ⟨hbw, rfl⟩, hbh, rfl⟩

theorem pageLoop_eq_bytesOf (hc : c.wf = true) : pageLoop c g = bytesOf c.fbSize (pageByte c g) := by
  rw [pageLoop_eq_foldl_drawnPixels, foldl_lightPixel_canvas hc]
  refine canvas_congr hc fun px py _ _ => ?_
  simp [mem_drawnPixels]

/-! ### `page`, pixel by pixel -/

/-- Device pixel `(px, py)` is bit `py mod 8` of its byte (10_state.md R25). -/
theorem getLsbD_pageByte {px : Nat} (hx : px < c.width) (py : Nat) :
    (pageByte c g (py / 8 * c.width + px)).getLsbD (py % 8) = pixelLit c g px py := by
  rw [pageByte_eq_canvasByte, getLsbD_canvasByte _ c _ (Nat.mod_lt py (by decide)), Config.pixel_mod_width hx,
    Config.pixel_div_width hx, Nat.div_add_mod]

/-- Outside the blocks no pixel is lit; a scale below one pixel leaves no blocks (R128). -/
theorem pixelLit_of_margin {px py : Nat} (h : c.cols * c.bw ≤ px ∨ c.rows * c.bh ≤ py) :
    pixelLit c g px py = false := by
  refine Bool.eq_false_iff.mpr fun hlit => ?_
  obtain ⟨hbw, hbh, hcx, hcy, -⟩ := pixelLit_iff.mp hlit
  rw [Nat.div_lt_iff_lt_mul hbw] at hcx
  rw [Nat.div_lt_iff_lt_mul hbh] at hcy
  omega

/-- The top left pixel of a cell's block shows the cell (R129). -/
theorem pixelLit_block {cx cy : Nat} (hbw : 1 ≤ c.bw) (hbh : 1 ≤ c.bh) (hcx : cx < c.cols) (hcy : cy < c.rows) :
    pixelLit c g (cx * c.bw) (cy * c.bh) = true ↔ g (cy * c.cols + cx) ≠ 0x00#8 := by
  rw [pixelLit_iff, Nat.mul_div_cancel _ hbw, Nat.mul_div_cancel _ hbh]
  simp only [hbw, hbh, hcx, hcy, true_and]

end Sys2Proof.Machine

open Sys2Proof Sys2Proof.Machine

/-- Settles O32: the loops light the pixels of the set cells' blocks, which are those the closed form lights. -/
theorem pageLoopIsTheClosedForm : Obligations.PageLoopIsTheClosedForm := by
  intro c g hc
  rw [pageLoop_eq_bytesOf hc]
  refine ⟨length_bytesOf .., fun px py hx hy => ?_, rfl⟩
  exact ⟨_, getElem?_bytesOf _ _ _ (Config.pixel_lt_fbSize hx hc hy), by rw [getLsbD_pageByte hx, pixelLit_iff]⟩

/-- Settles O36: the top left pixel of a block is on the device and shows the cell. -/
theorem cellsCanBeReadOffThePage : Obligations.CellsCanBeReadOffThePage := by
  intro c g cx cy hc hbw hbh hcx hcy
  have hx : cx * c.bw < c.width := (Nat.mul_lt_mul_of_pos_right hcx hbw).trans_le c.cols_mul_bw_le
  rw [getLsbD_pageByte hx, pixelLit_block hbw hbh hcx hcy]

/-- Settles O37: a scale below one pixel is the case of margins that cover the device. -/
theorem marginsStayDark : Obligations.MarginsStayDark := by
  refine fun c g _ => ⟨c.cols_mul_bw_le, c.rows_mul_bh_le, fun hscale k _ => ?scale, fun px py hx _ hmargin => ?margin⟩
  case scale =>
    have hdark : pixelLit c g = fun _ _ => false :=
      funext₂ fun px py => pixelLit_of_margin (hscale.imp (fun h => by simp [h]) fun h => by simp [h])
    rw [pageByte_eq_canvasByte, hdark, canvasByte_dark]
  case margin => rw [getLsbD_pageByte hx, pixelLit_of_margin hmargin]

end

section
/-! INIT and RENDER (43_display_init_and_pager.md R120, R121, R125, R126). -/

namespace Sys2Proof.Machine

/-- What INIT emits, and what the sink makes of it (R121, 60_exceptions.md R162). -/
theorem emitted_initSeq (s : State) :
    s.emitted [.initSeq] =
      { s with
        trace := s.trace ++ s.cfg.initSeq.map Burst.command
        sink := s.sink.spend s.cfg.initSeq.length } := by
  have hbursts : [Emission.initSeq].flatMap (Emission.bursts s.cfg) = s.cfg.initSeq.map Burst.command :=
    List.flatMap_singleton ..
  rw [State.emitted, hbursts, tokenCount_map_command]
  rfl

/-- INIT's state, field by field. -/
theorem initialised_eq (s : State) :
    initialised s =
      { s.answered 0x00#8 with
        fb := (initialised s).fb
        dc := (initialised s).dc
        ffr := true
        initd := true
        trace := s.trace ++ s.cfg.initSeq.map Burst.command
        sink := s.sink.spend s.cfg.initSeq.length } := by
  rw [initialised, emitted_initSeq]
  rfl

theorem initialised_fbByte (s : State) (k : Nat) :
    (initialised s).fbByte k = if k < s.cfg.fbSize then 0x00#8 else s.fbByte k := by
  simp [initialised, fbByte_writeFb]

theorem initialised_dcByte (s : State) (k : Nat) :
    (initialised s).dcByte k = if k < s.cfg.fbSize then 0x00#8 else s.dcByte k := by
  simp [initialised, dcByte_writeDc]

/-- What RENDER does to the block once initialised: `FB` and the model's mark change, nothing else (R125). -/
theorem exec_render_eq {s : State} (h : s.initd = true) :
    exec .render s =
      .next { s.answered 0x00#8 with fb := (rendered s).fb, programFault := (rendered s).programFault } :=
  execRender_next h

/-- RENDER writes nothing past the last byte of `FB`. -/
theorem rendered_fbByte_of_ge {s : State} {k : Nat} (hk : s.cfg.fbSize ≤ k) : (rendered s).fbByte k = s.fbByte k :=
  (fbByte_writeFb ..).trans (if_neg (by omega))

end Sys2Proof.Machine

open Sys2Proof Sys2Proof.Machine

/-- Settles O30: INIT's state field by field. -/
theorem initStartsTheDisplay : Obligations.InitStartsTheDisplay := by
  refine ⟨by decide, fun s haccepts => ⟨(initialised s).fb, (initialised s).dc, s.sink.spend s.cfg.initSeq.length, ?_,
    initialised_fbByte s, initialised_dcByte s, spend_devByte _ _, rfl⟩⟩
  rw [← initialised_eq]
  exact execInit_of_accepts (by rwa [tokenCount_map_command])

/-- Settles O33: refused before INIT; after it every byte of `FB` is that of `page(GRID)`, read pixel by pixel. -/
theorem renderDrawsTheGrid : Obligations.RenderDrawsTheGrid := by
  refine ⟨by decide, fun s hc => ⟨execRender_of_uninitialised, fun hinitd => ⟨(rendered s).fb, (rendered s).programFault,
    exec_render_eq hinitd, fun px py hx hy => ?_, fun k => rendered_fbByte_of_ge⟩⟩⟩
  have hbyte := rendered_fbByte (s := s) (Config.pixel_lt_fbSize hx hc hy)
  rw [← pixelLit_iff, ← getLsbD_pageByte hx, ← hbyte]
  rfl

/-- Settles O35: every byte of `FB` is that of `page(GRID)`, which depends on no byte beyond `GRID`. -/
theorem renderDependsOnGridAlone : Obligations.RenderDependsOnGridAlone := by
  intro s t s' t' hinitd hinitd' hcfg hgrid ht ht' k hk
  cases (execRender_next hinitd).symm.trans ht
  cases (execRender_next hinitd').symm.trans ht'
  rw [rendered_fbByte hk, rendered_fbByte (hcfg ▸ hk), pageByte_congr hgrid, hcfg]

end

section
/-! What one COMMIT sends: the pages of 44_dirty_detector.md R136 and the bursts of R137. -/

namespace Sys2Proof.Machine

/-! ### Chunks of a page -/

theorem drop_bytesOf (n m : Nat) (g : Nat → Byte) : (bytesOf n g).drop m = bytesOf (n - m) fun x => g (m + x) := by
  refine List.ext_getElem (by simp) fun k _ _ => ?_
  simp [bytesOf]

theorem take_bytesOf (n m : Nat) (g : Nat → Byte) : (bytesOf n g).take m = bytesOf (min m n) g := by
  rw [bytesOf, ← List.map_take, List.take_range, bytesOf]

/-- The chunks of a list of bytes given by their index: all of `n` bytes but the last, which holds what is left. -/
theorem chunks_bytesOf (n w : Nat) (g : Nat → Byte) :
    chunks n (bytesOf w g) =
      (List.range ((w + n - 1) / n)).map fun j => bytesOf (min n (w - j * n)) fun x => g (j * n + x) := by
  simp only [chunks, length_bytesOf, drop_bytesOf, take_bytesOf]

variable {s t : State}

theorem chunks_pageBytes (s : State) (p : Nat) :
    chunks s.cfg.chunkMax (s.pageBytes p) =
      (List.range ((s.cfg.width + s.cfg.chunkMax - 1) / s.cfg.chunkMax)).map fun j =>
        bytesOf (min s.cfg.chunkMax (s.cfg.width - j * s.cfg.chunkMax)) fun x =>
          s.fbByte (p * s.cfg.width + j * s.cfg.chunkMax + x) := by
  simp only [State.pageBytes, chunks_bytesOf, Nat.add_assoc]

/-! ### The bursts of a sent page -/

/-- The bursts of one sent page (R137). -/
def State.pageBursts (s : State) (p : Nat) : List Burst := (s.pageEmissions p).flatMap (Emission.bursts s.cfg)

/-- The page select, one command burst per byte, and then one data burst per chunk. -/
theorem pageBursts_eq (s : State) (p : Nat) :
    s.pageBursts p =
      (s.cfg.pageSelect p).map Burst.command ++ (chunks s.cfg.chunkMax (s.pageBytes p)).map Burst.data := by
  rw [State.pageBursts, State.pageEmissions, List.flatMap_cons, List.flatMap_map, List.map_eq_flatMap (f := Burst.data)]
  rfl

theorem bursts_commitEmissions (s : State) :
    (commitEmissions s).flatMap (Emission.bursts s.cfg) = s.sentPages.flatMap s.pageBursts := List.flatMap_assoc

@[simp] theorem committed_trace (s : State) : (committed s).trace = s.trace ++ s.sentPages.flatMap s.pageBursts := by
  obtain ⟨m, hm⟩ := committed_eq s
  rw [hm, bursts_commitEmissions]

theorem length_pageBursts (s : State) (p : Nat) :
    (s.pageBursts p).length =
      (s.cfg.pageSelect p).length + (s.cfg.width + s.cfg.chunkMax - 1) / s.cfg.chunkMax := by
  simp [pageBursts_eq, chunks]

theorem tokenCount_map_data (chunks : List (List Byte)) : tokenCount (chunks.map Burst.data) = chunks.flatten.length := by
  simp [tokenCount, Function.comp_def, List.length_flatten]

theorem tokenCount_pageBursts (hc : s.cfg.wf = true) (p : Nat) :
    tokenCount (s.pageBursts p) = (s.cfg.pageSelect p).length + s.cfg.width := by
  rw [pageBursts_eq, tokenCount_append, tokenCount_map_command, tokenCount_map_data,
    flatten_chunks _ (Config.chunkMax_bounds hc).1, length_pageBytes]

theorem tokenCount_flatMap {α : Type} (l : List α) (f : α → List Burst) :
    tokenCount (l.flatMap f) = (l.map fun a => tokenCount (f a)).sum := by
  induction l with
  | nil => rfl
  | cons a l ih => rw [List.flatMap_cons, tokenCount_append, ih, List.map_cons, List.sum_cons]

theorem sum_map_of_const {α : Type} {l : List α} {f : α → Nat} {n : Nat} (h : ∀ a ∈ l, f a = n) :
    (l.map f).sum = l.length * n := by
  rw [List.map_eq_replicate_iff.mpr h, List.sum_const_nat]

/-! ### The pages a COMMIT sends -/

/-- The dirty test of R136, by columns. -/
theorem pageDirty_iff (s : State) (p : Nat) :
    s.pageDirty p = true ↔
      ∃ x, x < s.cfg.width ∧ s.fbByte (p * s.cfg.width + x) ≠ s.dcByte (p * s.cfg.width + x) := by
  simp [State.pageDirty]

/-- The dirty test of R136, by the indexes of `FB` that lie on the page. -/
theorem pageDirty_iff_index (hw : 1 ≤ s.cfg.width) (p : Nat) :
    s.pageDirty p = true ↔ ∃ k, k / s.cfg.width = p ∧ s.fbByte k ≠ s.dcByte k := by
  rw [pageDirty_iff]
  constructor
  · rintro ⟨x, hx, hne⟩
    exact ⟨p * s.cfg.width + x, (page_index hw).mp ⟨Nat.le_add_right .., Nat.add_lt_add_left hx _⟩, hne⟩
  · rintro ⟨k, hk, hne⟩
    have hpage := (page_index hw).mpr hk
    exact ⟨k - p * s.cfg.width, by omega, by rwa [Nat.add_sub_cancel' hpage.1]⟩

theorem sentPages_sorted (s : State) : s.sentPages.Pairwise (· < ·) := List.pairwise_lt_range.filter _

theorem mem_sentPages_iff {p : Nat} :
    p ∈ s.sentPages ↔ p < s.cfg.pages ∧
      (s.ffr = true ∨ ∃ x, x < s.cfg.width ∧ s.fbByte (p * s.cfg.width + x) ≠ s.dcByte (p * s.cfg.width + x)) := by
  rw [mem_sentPages, State.pageSent, Bool.or_eq_true, pageDirty_iff]

/-! ### COMMIT once initialised -/

/-- A COMMIT that completes after INIT ends in the state `committed`. -/
theorem eq_committed_of_exec (hinitd : s.initd = true) (h : exec .commit s = .next t) : t = committed s := by
  rcases execCommit_cases s with ⟨hno, -⟩ | ⟨-, -, e⟩ | ⟨-, -, e⟩
  · rw [hinitd] at hno; cases hno
  · rw [e] at h; cases h; rfl
  · rw [e] at h; cases h

/-- COMMIT's state, with `DC` and the display device named by what they are there. -/
theorem committed_eq_answered (s : State) :
    committed s =
      { s.answered 0x00#8 with
        dc := (committed s).dc
        ffr := false
        trace := s.trace ++ s.sentPages.flatMap s.pageBursts
        sink := (committed s).sink } := by
  obtain ⟨m, hm⟩ := committed_eq s
  rw [hm, bursts_commitEmissions]
  rfl

theorem dcByte_with_committed_dc (s : State) (k : Nat) :
    State.dcByte { s with dc := (committed s).dc } k = (committed s).dcByte k := by
  rw [State.dcByte, State.dcByte, committed_epoch]

end Sys2Proof.Machine

open Sys2Proof Sys2Proof.Machine

/-- Settles O39: the sent pages are `sentPages`, and `committed` field by field. -/
theorem commitSendsForcedAndDirtyPages : Obligations.CommitSendsForcedAndDirtyPages := by
  refine fun s hc hinitd => ⟨s.sentPages, sentPages_sorted s, fun p => mem_sentPages_iff, fun bursts hbursts haccepts => ?_⟩
  have hsent : bursts = s.sentPages.flatMap s.pageBursts := hbursts.trans <| List.flatMap_congr fun p _ => by
    rw [pageBursts_eq, chunks_pageBytes, List.map_map]
    rfl
  subst hsent
  refine ⟨(committed s).dc, (committed s).sink, ?next, fun k => ?cache⟩
  case next =>
    rw [← committed_eq_answered]
    exact execCommit_of_accepts hinitd (by rwa [bursts_commitEmissions])
  case cache => rw [dcByte_with_committed_dc, committed_dcByte s k (Config.width_bounds hc).1]

/-- Settles O40: sent pages are copied and the others were equal. -/
theorem commitMakesTheCacheEqual : Obligations.CommitMakesTheCacheEqual := by
  intro s t hc hinitd hexec
  obtain rfl := eq_committed_of_exec hinitd hexec
  exact ⟨committed_ffr s, fun k hk =>
    ⟨(committed_dcByte_eq_fbByte hc hk).trans (committed_fbByte s k).symm, committed_fbByte s k⟩⟩

/-- Settles O41: every sent page has the same number of bursts and of tokens. -/
theorem commitTrafficIsBounded : Obligations.CommitTrafficIsBounded := by
  intro s t n hc hinitd hlength hexec
  obtain rfl := eq_committed_of_exec hinitd hexec
  have hselect : ∀ p ∈ s.sentPages, (s.cfg.pageSelect p).length = n := fun p hp => hlength p (mem_sentPages.mp hp).1
  refine ⟨_, committed_trace s, ?bursts, ?tokens, fun hffr p => ?pages⟩
  case bursts =>
    rw [List.length_flatMap]
    exact sum_map_of_const fun p hp => by rw [length_pageBursts, hselect p hp]
  case tokens =>
    rw [tokenCount_flatMap]
    exact sum_map_of_const fun p hp => by rw [tokenCount_pageBursts hc, hselect p hp]
  case pages =>
    rw [mem_sentPages, State.pageSent, hffr, Bool.false_or, pageDirty_iff_index (Config.width_bounds hc).1]

end

section
/-! The loop of 44_dirty_detector.md R135 as it is written: each turn emits a page's bursts and copies it to `DC`, and no
turn changes what the next one tests or sends. -/

namespace Sys2Proof.Machine

/-! ### The chunks, one after the other -/

theorem chunks_nil {n : Nat} (hn : 1 ≤ n) : chunks n [] = [] := by
  rw [chunks, List.length_nil, Nat.zero_add, Nat.div_eq_of_lt (by omega)]
  rfl

/-- The first chunk, and the chunks of what is left. -/
theorem chunks_bytesOf_cons {n w : Nat} (hn : 1 ≤ n) (hw : 1 ≤ w) (g : Nat → Byte) :
    chunks n (bytesOf w g) = bytesOf (min n w) g :: chunks n (bytesOf (w - n) fun x => g (n + x)) := by
  have hcount : (w + n - 1) / n = (w - n + n - 1) / n + 1 := by
    by_cases h : n ≤ w
    · rw [← Nat.add_div_right _ hn]
      congr 1
      omega
    · rw [Nat.div_eq_of_lt (by omega : w - n + n - 1 < n), Nat.div_eq_iff hn]
      omega
  rw [chunks_bytesOf, chunks_bytesOf, hcount, List.range_succ_eq_map, List.map_cons, List.map_map]
  congr 1
  · simp
  · refine List.map_congr_left fun j _ => ?_
    simp only [Function.comp_apply, Nat.succ_mul, Nat.sub_sub, Nat.add_comm, Nat.add_left_comm]

variable {s : State}

/-- The inner loop of R135 cuts the rest of the page, from column `off` on, in chunks. -/
theorem chunkLoop_eq_chunks (hn : 1 ≤ s.cfg.chunkMax) (base fuel off : Nat) (hfuel : s.cfg.width ≤ fuel + off) :
    s.chunkLoop base fuel off =
      chunks s.cfg.chunkMax (bytesOf (s.cfg.width - off) fun x => s.fbByte (base + off + x)) := by
  induction fuel generalizing off with
  | zero => rw [Nat.sub_eq_zero_of_le (by omega)]; exact (chunks_nil hn).symm
  | succ fuel ih =>
    rw [State.chunkLoop]
    split
    · next hoff =>
      show _ :: s.chunkLoop base fuel (off + min s.cfg.chunkMax (s.cfg.width - off)) = _
      rw [chunks_bytesOf_cons hn (Nat.sub_pos_of_lt hoff), ih (off + min s.cfg.chunkMax (s.cfg.width - off)) (by omega),
        show s.cfg.width - (off + min s.cfg.chunkMax (s.cfg.width - off)) = s.cfg.width - off - s.cfg.chunkMax by omega]
      refine congrArg (List.cons _) (congrArg (chunks _) (bytesOf_congr fun k hk => congrArg s.fbByte ?_))
      omega
    · next hoff => rw [Nat.sub_eq_zero_of_le (by omega)]; exact (chunks_nil hn).symm

/-! ### The cache update, byte by byte -/

theorem Memory.cellsFrom_append (base : Nat) (xs ys : List Byte) :
    cellsFrom base (xs ++ ys) = cellsFrom base xs ++ cellsFrom (base + xs.length) ys := by
  induction xs generalizing base with
  | nil => rfl
  | cons x xs ih =>
    rw [List.cons_append, cellsFrom, ih, List.length_cons, Nat.add_assoc, Nat.add_comm 1]
    rfl

/-- Below the end of a write stand the cells that were below its start, and those it wrote. -/
theorem Memory.filter_lt_writeBytes (m : Memory) (base : Nat) (xs : List Byte) :
    (writeBytes m base xs).filter (fun cell => cell.1 < base + xs.length) =
      m.filter (fun cell => cell.1 < base) ++ cellsFrom base xs := by
  have hlow : (m.filter fun cell => cell.1 < base).filter (fun cell => cell.1 < base + xs.length) =
      m.filter fun cell => cell.1 < base :=
    List.filter_eq_self.mpr fun cell hcell => by
      have := of_decide_eq_true (List.mem_filter.mp hcell).2
      exact decide_eq_true (by omega)
  have hwritten : (cellsFrom base xs).filter (fun cell => cell.1 < base + xs.length) = cellsFrom base xs :=
    List.filter_eq_self.mpr fun cell hcell => decide_eq_true (mem_cellsFrom hcell).2
  have hhigh : (m.filter fun cell => base + xs.length ≤ cell.1).filter (fun cell => cell.1 < base + xs.length) = [] :=
    List.filter_eq_nil_iff.mpr fun cell hcell => by
      have := of_decide_eq_true (List.mem_filter.mp hcell).2
      simpa using this
  rw [writeBytes, List.filter_append, List.filter_append, hlow, hwritten, hhigh, List.append_nil]

/-- From any index past the end of a write on, the cells are those that were there. -/
theorem Memory.filter_le_writeBytes (m : Memory) (base : Nat) (xs : List Byte) {n : Nat} (hn : base + xs.length ≤ n) :
    (writeBytes m base xs).filter (fun cell => n ≤ cell.1) = m.filter (fun cell => n ≤ cell.1) := by
  have hlow : (m.filter fun cell => cell.1 < base).filter (fun cell => n ≤ cell.1) = [] :=
    List.filter_eq_nil_iff.mpr fun cell hcell => by
      have := of_decide_eq_true (List.mem_filter.mp hcell).2
      simp only [decide_eq_true_eq]
      omega
  have hwritten : (cellsFrom base xs).filter (fun cell => n ≤ cell.1) = [] :=
    filter_cellsFrom_eq_nil fun cell _ hend => decide_eq_false (by omega)
  have hhigh : (m.filter fun cell => base + xs.length ≤ cell.1).filter (fun cell => n ≤ cell.1) =
      m.filter fun cell => n ≤ cell.1 := by
    rw [List.filter_filter]
    refine List.filter_congr fun cell _ => ?_
    rw [Bool.and_eq_left_iff_imp, decide_eq_true_eq, decide_eq_true_eq]
    exact hn.trans
  rw [writeBytes, List.filter_append, List.filter_append, hlow, hwritten, hhigh]
  rfl

/-- Two adjacent writes are one. -/
theorem Memory.writeBytes_append (m : Memory) (base : Nat) (xs ys : List Byte) :
    writeBytes (writeBytes m base xs) (base + xs.length) ys = writeBytes m base (xs ++ ys) := by
  rw [writeBytes, filter_lt_writeBytes, filter_le_writeBytes m base xs (Nat.le_add_right ..), writeBytes,
    cellsFrom_append, List.length_append, Nat.add_assoc]
  simp only [List.append_assoc]

theorem writeDc_writeDc (s : State) (base : Nat) (xs ys : List Byte) :
    (s.writeDc base xs).writeDc (base + xs.length) ys = s.writeDc base (xs ++ ys) :=
  congrArg (fun m => { s with dc := m }) (Memory.writeBytes_append ..)

theorem bytesOf_succ (n : Nat) (g : Nat → Byte) : bytesOf (n + 1) g = bytesOf n g ++ [g n] := by
  simp [bytesOf, List.range_succ]

/-- The inner loop of R135 that copies a page writes its bytes at once. -/
theorem foldl_writeDc_byte (s : State) (base n : Nat) :
    (List.range (n + 1)).foldl (fun t x => t.writeDc (base + x) [t.fbByte (base + x)]) s =
      s.writeDc base (bytesOf (n + 1) fun x => s.fbByte (base + x)) := by
  induction n with
  | zero => rfl
  | succ n ih =>
    rw [List.range_succ, List.foldl_append, ih, bytesOf_succ (n + 1), ← writeDc_writeDc, length_bytesOf]
    rfl

/-! ### One turn of the outer loop -/

theorem commitPage_of_sent (hc : s.cfg.wf = true) {p : Nat} (h : s.pageSent p = true) :
    s.commitPage p = (s.emitted (s.pageEmissions p)).cachePage p := by
  have hchunks : s.chunkLoop (p * s.cfg.width) s.cfg.width 0 = chunks s.cfg.chunkMax (s.pageBytes p) :=
    chunkLoop_eq_chunks (Config.chunkMax_bounds hc).1 _ _ 0 (Nat.le_refl _)
  obtain ⟨w, hw⟩ : ∃ w, s.cfg.width = w + 1 := Nat.exists_eq_add_of_le' (Config.width_bounds hc).1
  rw [State.commitPage, if_pos (show (s.ffr || s.pageDirty p) = true from h), hchunks, hw, foldl_writeDc_byte, ← hw]
  rfl

theorem commitPage_of_not_sent {p : Nat} (h : s.pageSent p = false) : s.commitPage p = s :=
  if_neg (by rw [← State.pageSent, h]; decide)

/-- Copying page `p` changes the test of no other page. -/
theorem pageSent_cachePage (hw : 1 ≤ s.cfg.width) {p q : Nat} (hne : q ≠ p) :
    (s.cachePage p).pageSent q = s.pageSent q := by
  have hdirty : (s.cachePage p).pageDirty q = s.pageDirty q := by
    rw [Bool.eq_iff_iff, pageDirty_iff_index hw, pageDirty_iff_index (s := s.cachePage p) hw]
    refine exists_congr fun k => and_congr_right fun hk => ?_
    have hdc : (s.cachePage p).dcByte k = s.dcByte k :=
      (dcByte_cachePage s p k hw).trans (if_neg fun h => hne (hk.symm.trans h))
    rw [hdc]
    rfl
  rw [State.pageSent, hdirty]
  rfl

/-! ### The outer loop -/

theorem emitted_nil (s : State) : s.emitted [] = s := by
  simp [State.emitted]

theorem emitted_emitted (s : State) (es es' : List Emission) : (s.emitted es).emitted es' = s.emitted (es ++ es') := by
  simp [State.emitted, ← foldl_take_spend, spend_spend]

/-- The loop over a list of pages sends, and then copies, those that were to be sent at its start. -/
theorem foldl_commitPage {pages : List Nat} (hpages : pages.Nodup) {s : State} (hc : s.cfg.wf = true) :
    pages.foldl State.commitPage s =
      (pages.filter s.pageSent).foldl State.cachePage
        (s.emitted ((pages.filter s.pageSent).flatMap s.pageEmissions)) := by
  induction pages generalizing s with
  | nil => exact (emitted_nil s).symm
  | cons p pages ih =>
    obtain ⟨hp, hrest⟩ := List.nodup_cons.mp hpages
    rw [List.foldl_cons]
    cases hsent : s.pageSent p with
    | false => rw [commitPage_of_not_sent hsent, ih hrest hc, List.filter_cons_of_neg (by simp [hsent])]
    | true =>
      have hfilter : pages.filter ((s.emitted (s.pageEmissions p)).cachePage p).pageSent = pages.filter s.pageSent :=
        List.filter_congr fun q hq =>
          pageSent_cachePage (s := s.emitted (s.pageEmissions p)) (Config.width_bounds hc).1 (ne_of_mem_of_not_mem hq hp)
      rw [commitPage_of_sent hc hsent, ih hrest (s := (s.emitted (s.pageEmissions p)).cachePage p) hc,
        hfilter, List.filter_cons_of_pos hsent, List.flatMap_cons,
        ← emitted_emitted]
      rfl

theorem commitLoop_respond (hc : s.cfg.wf = true) : s.commitLoop.respond 0x00#8 = committed s := by
  rw [State.commitLoop, foldl_commitPage List.nodup_range hc]
  rfl

theorem commitLoop_trace (hc : s.cfg.wf = true) :
    s.commitLoop.trace = s.trace ++ (commitEmissions s).flatMap (Emission.bursts s.cfg) := by
  rw [← respond_trace, commitLoop_respond hc, committed_trace, bursts_commitEmissions]

end Sys2Proof.Machine

open Sys2Proof Sys2Proof.Machine

/-- Settles O38: the loop sends the pages that were to be sent at its start, so it ends where `committed` says. -/
theorem commitIsTheWrittenLoop : Obligations.CommitIsTheWrittenLoop := by
  refine ⟨by decide, fun s hc => ⟨execCommit_of_uninitialised, fun hinitd haccepts => ?_⟩⟩
  rw [commitLoop_trace hc, List.drop_left] at haccepts
  exact (execCommit_of_accepts hinitd haccepts).trans (congrArg Host.Outcome.next (commitLoop_respond hc).symm)

end

section
/-! COMMIT after other commands: after another COMMIT of the same grid (44_dirty_detector.md R140), and after an INIT
(R141). -/

namespace Sys2Proof.Machine

variable {s t : State}

/-! ### The second SHOW -/

@[simp] theorem rendered_gridByte (s : State) (k : Nat) : (rendered s).gridByte k = s.gridByte k := by simp [rendered]
@[simp] theorem rendered_dcByte (s : State) (k : Nat) : (rendered s).dcByte k = s.dcByte k := by simp [rendered]
@[simp] theorem rendered_ffr (s : State) : (rendered s).ffr = s.ffr := by simp [rendered]
@[simp] theorem rendered_trace (s : State) : (rendered s).trace = s.trace := by simp [rendered]

theorem execAll_show (hinitd : s.initd = true) : execAll Pseudo.SHOW.expand s = exec .commit (rendered s) := by
  rw [Pseudo.expand, execAll_cons_of_next (execRender_next hinitd), execAll]
  cases exec .commit (rendered s) <;> rfl

/-- A COMMIT sends nothing when no page is forced and the cache is the framebuffer. -/
theorem sentPages_eq_nil (hw : 1 ≤ s.cfg.width) (hffr : s.ffr = false)
    (heq : ∀ k, k < s.cfg.fbSize → s.fbByte k = s.dcByte k) : s.sentPages = [] := by
  refine List.eq_nil_iff_forall_not_mem.mpr fun p hp => ?_
  rw [mem_sentPages, State.pageSent, hffr, Bool.false_or, pageDirty_iff_index hw] at hp
  obtain ⟨hpage, k, rfl, hne⟩ := hp
  exact hne (heq k (((Nat.div_lt_iff_lt_mul hw).mp hpage).trans_eq (Nat.mul_comm ..)))

/-- A COMMIT with no page to send completes, whatever the sink still takes. -/
theorem execCommit_of_sentPages_nil (hinitd : s.initd = true) (h : s.sentPages = []) :
    exec .commit s = .next (committed s) := by
  refine execCommit_of_accepts hinitd ?_
  rw [bursts_commitEmissions, h]
  cases hroom : s.sink.room <;> simp [Sink.accepts, hroom]

/-- The state after a SHOW. -/
def shownState (s : State) : State := committed (rendered s)

theorem shownState_fbByte {k : Nat} (hk : k < s.cfg.fbSize) :
    (shownState s).fbByte k = pageByte s.cfg s.gridByte k :=
  (committed_fbByte ..).trans (rendered_fbByte hk)

theorem shownState_dcByte (hc : s.cfg.wf = true) {k : Nat} (hk : k < s.cfg.fbSize) :
    (shownState s).dcByte k = pageByte s.cfg s.gridByte k :=
  (committed_dcByte_eq_fbByte (by simpa using hc) (by simpa using hk)).trans (rendered_fbByte hk)

@[simp] theorem shownState_cfg (s : State) : (shownState s).cfg = s.cfg := by simp [shownState]
@[simp] theorem shownState_initd (s : State) : (shownState s).initd = s.initd := by simp [shownState]
@[simp] theorem shownState_ffr (s : State) : (shownState s).ffr = false := committed_ffr _
@[simp] theorem shownState_gridByte (s : State) : (shownState s).gridByte = s.gridByte := by
  funext k
  simp [shownState]

/-- The framebuffer that a second RENDER of the same grid draws. -/
theorem rendered_shownState_fbByte {k : Nat} (hk : k < s.cfg.fbSize) :
    (rendered (shownState s)).fbByte k = pageByte s.cfg s.gridByte k := by
  rw [rendered_fbByte (by simpa using hk), shownState_cfg, shownState_gridByte]

/-- After a SHOW and a second RENDER no page is left to send. -/
theorem sentPages_rendered_shownState (hc : s.cfg.wf = true) : (rendered (shownState s)).sentPages = [] := by
  refine sentPages_eq_nil (by simpa using (Config.width_bounds hc).1) (by simp) fun k hk => ?_
  have hk : k < s.cfg.fbSize := by simpa using hk
  rw [rendered_shownState_fbByte hk, rendered_dcByte, shownState_dcByte hc hk]

/-! ### The first COMMIT after an INIT -/

variable {i : Instr}

/-- After an INIT and before the next COMMIT: initialised, and every page forced (R141). -/
structure State.Forced (s : State) : Prop where
  initd : s.initd = true
  ffr : s.ffr = true

theorem initialised_forced (s : State) : (initialised s).Forced := ⟨rfl, rfl⟩

/-- COMMIT alone clears `FFR`, and no instruction clears `INITD`. -/
theorem Completes.keeps_forced (h : Completes s i t) (hi : i ≠ .commit) (hforced : s.Forced) : t.Forced := by
  obtain ⟨hinitd, hffr⟩ := hforced
  cases h with
  | commit => exact absurd rfl hi
  | _ => exact ⟨by simp [hinitd], by simp [hffr]⟩

/-- A list of instructions that holds no COMMIT keeps the pages forced, and the configuration. -/
theorem execAll_keeps_forced {is : List Instr} (his : .commit ∉ is) {s : State} (hforced : s.Forced)
    (h : execAll is s = .next t) : t.Forced ∧ t.cfg = s.cfg := by
  induction is generalizing s with
  | nil => cases h; exact ⟨hforced, rfl⟩
  | cons i is ih =>
    obtain ⟨hi, hrest⟩ := not_or.mp (mt List.mem_cons.mpr his)
    obtain ⟨u, hu, h⟩ := andThen_eq_next.mp h
    have hu := completes_of_exec hu
    obtain ⟨ht, hcfg⟩ := ih hrest (hu.keeps_forced (Ne.symm hi) hforced) h
    exact ⟨ht, hcfg.trans hu.cfg_eq⟩

theorem State.Forced.sentPages_eq (h : s.Forced) : s.sentPages = List.range s.cfg.pages :=
  List.filter_eq_self.mpr fun p _ => by rw [State.pageSent, h.ffr, Bool.true_or]

end Sys2Proof.Machine

open Sys2Proof Sys2Proof.Machine

/-- Settles O42: the second RENDER draws what `FB` and `DC` hold already, and the second COMMIT finds no page to send. -/
theorem secondShowEmitsNothing : Obligations.SecondShowEmitsNothing := by
  intro s t hc hinitd hexec
  rw [execAll_show hinitd] at hexec
  obtain rfl : t = shownState s := eq_committed_of_exec (by simpa using hinitd) hexec
  have hnone := sentPages_rendered_shownState hc
  refine ⟨committed (rendered (shownState s)), ?next, ?trace, fun k hk => ?page⟩
  case next =>
    rw [execAll_show (by simpa using hinitd)]
    exact execCommit_of_sentPages_nil (by simpa using hinitd) hnone
  case trace => rw [committed_trace, hnone, List.flatMap_nil, List.append_nil, rendered_trace]
  case page => rw [committed_fbByte, rendered_shownState_fbByte hk, shownState_fbByte hk]

/-- Settles O43: INIT forces every page, and nothing but COMMIT takes that back. -/
theorem firstCommitAfterInitSendsEveryPage : Obligations.FirstCommitAfterInitSendsEveryPage := by
  intro s a b t is _ hinit his hrun hcommit
  have ha : a = initialised s := by
    rcases execInit_cases s with ⟨-, e⟩ | ⟨-, e⟩ <;> rw [e] at hinit <;> cases hinit
    rfl
  obtain ⟨hforced, hcfg⟩ := execAll_keeps_forced his (ha ▸ initialised_forced s) hrun
  have hcfg : b.cfg = s.cfg := hcfg.trans (completes_of_exec hinit).cfg_eq
  obtain rfl := eq_committed_of_exec hforced.initd hcommit
  refine ⟨by rw [hforced.sentPages_eq, hcfg], ?_⟩
  rw [committed_trace, hforced.sentPages_eq, ← hcfg, List.flatMap_assoc]
  rfl

end

section
/-! The display consistent with the cache, and both with the framebuffer after a COMMIT (60_exceptions.md R162, R163). -/

namespace Sys2Proof.Machine

variable {s t : State}

theorem wf_of_step_eq_next (h : step s = .next t) : s.cfg.wf = true := by
  cases hc : s.cfg.wf with
  | true => rfl
  | false => rw [step_of_bad_config hc] at h; cases h

/-- Whatever the history, a COMMIT leaves the device showing the cache: a sent page goes to both, and a page that is not
sent was not forced, so the two agreed on it already. -/
theorem committed_devByte_eq_dcByte (hc : s.cfg.wf = true) (h : s.DisplayConsistent) (hinitd : s.initd = true) {k : Nat}
    (hk : k < s.cfg.fbSize) : (committed s).sink.devByte k = (committed s).dcByte k := by
  have hw := (Config.width_bounds hc).1
  rw [committed_devByte s k hw (Config.chunkMax_bounds hc).1, committed_dcByte s k hw]
  split
  · rfl
  · next hns =>
    have hffr : s.ffr = false := Bool.eq_false_iff.mpr fun hffr =>
      hns (mem_sentPages_iff.mpr ⟨Config.page_lt_of_lt_fbSize hk, .inl hffr⟩)
    exact h hinitd hffr k hk

/-- INIT forces the next COMMIT, which leaves the device consistent; nothing else touches what the display shows. -/
theorem Completes.keeps_displayConsistent {i : Instr} (hi : Completes s i t) (hc : s.cfg.wf = true)
    (h : s.DisplayConsistent) : t.DisplayConsistent := by
  cases hi with
  | init => exact fun _ hffr => nomatch hffr
  | commit hinitd => exact fun _ _ k hk => committed_devByte_eq_dcByte hc h hinitd (by rwa [committed_cfg] at hk)
  | _ => simpa [State.DisplayConsistent] using h

theorem performEvent_keeps_displayConsistent {e : HostEvent} (hc : s.cfg.wf = true) (h : s.DisplayConsistent)
    (he : performEvent e s = .next t) : t.DisplayConsistent := by
  cases e with
  | request w =>
    rcases performWord_cases w s with ⟨i, -, hw⟩ | ⟨op, -, hw⟩ <;> rw [performEvent, hw] at he
    · exact (completes_of_exec he).keeps_displayConsistent hc h
    · cases he
      exact h
  | reset =>
    cases he
    exact (applyReset_atReset s).displayConsistent
  | resetDuring w =>
    cases he
    exact (resetDuringWord_atReset w s).displayConsistent

end Sys2Proof.Machine

open Sys2Proof Sys2Proof.Machine

/-- Settles O52: a reset leaves nothing to show, and an instruction keeps the display by what it can do to it. -/
theorem stepKeepsTheDisplayConsistent : Obligations.StepKeepsTheDisplayConsistent := by
  intro s t h hstep
  rcases step_eq_next hstep with rfl | ⟨e, es, -, he⟩
  · exact h
  · have hc := wf_of_step_eq_next hstep
    exact performEvent_keeps_displayConsistent (s := s.withPending es) hc h he

/-- Settles O53: the cache becomes the framebuffer, and the device shows the cache. -/
theorem commitShowsTheFramebuffer : Obligations.CommitShowsTheFramebuffer := by
  intro s t hc h hinitd hexec k hk
  obtain rfl := eq_committed_of_exec hinitd hexec
  rw [committed_devByte_eq_dcByte hc h hinitd hk, committed_dcByte_eq_fbByte hc hk, committed_fbByte]
  exact ⟨rfl, rfl⟩

end

section
/-! The errors of a transaction: when each is raised, and that it is then the whole effect (60_exceptions.md R151 to R154). -/

namespace Sys2Proof

/-- The word that writes `op` to `CMD`, as the number that R71 makes of its fields. -/
theorem decode_command_number (op : Byte) : decode (BitVec.ofNat 27 (2 ^ 26 + op.toNat)) = decodeCommand op := by
  have hword : wordOf true 0#18 op = BitVec.ofNat 27 (2 ^ 26 + op.toNat) := by
    simpa using wordOf_eq_ofNat true 0#18 op
  rw [← hword, decode_wordOf_command]

theorem decodeCommand_of_unassigned {op : Byte} (h : op.toNat = 0x00 ∨ 0x07 ≤ op.toNat) :
    decodeCommand op = .error (.illegalCommand op) := by
  rw [decodeCommand_eq]
  iterate 6 rw [if_neg (by omega)]

theorem unassigned_of_decodeCommand_error {op : Byte} {r : Reject} (h : decodeCommand op = .error r) :
    op.toNat = 0x00 ∨ 0x07 ≤ op.toNat := by
  have := decodeCommand_cases op
  simp only [h, reduceCtorEq, and_false, false_or] at this
  exact this.1

theorem exists_decodeCommand_of_assigned {op : Byte} (h : 0x01 ≤ op.toNat) (h' : op.toNat ≤ 0x06) :
    ∃ i, decodeCommand op = .ok i := by
  cases hdecode : decodeCommand op with
  | ok i => exact ⟨i, rfl⟩
  | error r =>
    have := unassigned_of_decodeCommand_error hdecode
    omega

end Sys2Proof

namespace Sys2Proof.Machine

variable {s t : State} {addr : HostAddr} {d : Byte} {w : HostWord} {e e' : ErrorCode}

/-! ### WR by whether its address takes a write -/

theorem locate_eq_cmd {c : Config} (h : locate c addr = .cmd) : addr.toNat = 0x0 := by
  have := locate_cases c addr
  simp_all

/-- A write raises an error only at the addresses 20_memory.md R52 lists as unmapped or read-only. -/
theorem unmapped_or_readOnly_of_error (h : s.writeLocation d (locate s.cfg addr) = some (.error e)) :
    Unmapped s.cfg addr.toNat ∨ ReadOnly s.cfg addr.toNat := by
  cases hl : locate s.cfg addr with
  | unmapped => exact .inl (locate_eq_unmapped hl)
  | cmd | err | sample | frame | grid => simp [hl, State.writeLocation] at h
  | _ =>
    have := locate_cases s.cfg addr
    grind

/-- Storing a byte gives no response by itself. -/
theorem responses_of_writeLocation_ok {l : Location} (h : s.writeLocation d l = some (.ok t)) :
    t.responses = s.responses := by
  rcases writeLocation_ok h with ⟨-, rfl⟩ | ⟨i, -, rfl⟩ | ⟨k, -, rfl⟩ | ⟨k, -, rfl⟩ <;> rfl

/-- WR of a writable address completes. -/
theorem execWr_of_writable (hcmd : addr.toNat ≠ 0) (hmapped : ¬ Unmapped s.cfg addr.toNat)
    (hwritable : ¬ ReadOnly s.cfg addr.toNat) :
    ∃ t, exec (.wr addr d) s = .next t ∧ t.responses = s.responses ++ [{ rdata := 0x00#8, err := false }] := by
  rcases execWr_cases addr d s with ⟨t, ht, hexec⟩ | ⟨e, he, -⟩ | ⟨hl, -⟩
  · exact ⟨_, hexec, by rw [respond_responses, responses_of_writeLocation_ok ht]⟩
  · exact absurd (unmapped_or_readOnly_of_error he) (not_or.mpr ⟨hmapped, hwritable⟩)
  · exact absurd (locate_eq_cmd hl) hcmd

/-! ### The error table (R151) -/

theorem code_injective (h : e.code = e'.code) : e = e' := by
  cases e <;> cases e' <;> simp [ErrorCode.code] at h ⊢

theorem wr_addr_ne_cmd {c : Config} (h : Unmapped c addr.toNat ∨ ReadOnly c addr.toNat) : addr ≠ 0x00000#18 := by
  rintro rfl
  simp [Unmapped, ReadOnly] at h

/-- Under the condition of an error the transaction is refused with it. -/
theorem performWord_of_condition (h : e.condition w s) : performWord w s = .next (s.raise e) := by
  cases e with
  | illegalCmd =>
    obtain ⟨hwe, haddr, hop⟩ := h
    rw [performWord_of_illegal]
    exact (decode_of_command hwe (BitVec.eq_of_toNat_eq haddr)).trans (decodeCommand_of_unassigned hop)
  | notInit =>
    obtain ⟨hwe, haddr, hop, hinitd⟩ := h
    have hdecode := decode_of_command hwe (BitVec.eq_of_toNat_eq haddr)
    rcases hop with hop | hop
    · rw [show wdataField w = 0x05#8 from BitVec.eq_of_toNat_eq hop] at hdecode
      exact (performWord_of_ok hdecode).trans (execRender_of_uninitialised hinitd)
    · rw [show wdataField w = 0x06#8 from BitVec.eq_of_toNat_eq hop] at hdecode
      exact (performWord_of_ok hdecode).trans (execCommit_of_uninitialised hinitd)
  | badAddr =>
    cases hwe : weField w with
    | false => exact (performWord_of_ok (decode_of_read hwe)).trans (execRd_of_unmapped h)
    | true =>
      exact (performWord_of_ok (decode_of_write hwe (wr_addr_ne_cmd (.inl h)))).trans
        (execWr_of_error (writeLocation_of_unmapped h))
  | roWrite =>
    obtain ⟨hwe, hreadOnly⟩ := h
    exact (performWord_of_ok (decode_of_write hwe (wr_addr_ne_cmd (.inr hreadOnly)))).trans
      (execWr_of_error (writeLocation_of_readOnly hreadOnly))

/-- No two conditions hold together: on a clear latch, which no condition looks at, each would latch its own code. -/
theorem condition_unique (h : e.condition w s) (h' : e'.condition w s) : e = e' := by
  have hraise : s.clearErr.raise e = s.clearErr.raise e' :=
    Host.Outcome.next.inj ((performWord_of_condition (s := s.clearErr) h).symm.trans (performWord_of_condition h'))
  exact code_injective (congrArg State.err hraise)

theorem committed_responses (s : State) :
    (committed s).responses = s.responses ++ [{ rdata := 0x00#8, err := false }] := by
  obtain ⟨m, hm⟩ := committed_eq s
  rw [hm]

/-- A command that completes answers `err = 0`, unless it is RENDER or COMMIT and there was no INIT (R154). -/
theorem responses_of_command {op : Byte} {i : Instr} (hi : (op, i) ∈ commandTable) (h : exec i s = .next t) :
    t.responses = s.responses ++ [{ rdata := 0x00#8, err := false }] ∨
      ((op.toNat = 0x05 ∨ op.toNat = 0x06) ∧ s.initd = false) := by
  simp only [commandTable, List.mem_cons, Prod.mk.injEq, List.not_mem_nil, or_false] at hi
  rcases hi with ⟨rfl, rfl⟩ | ⟨rfl, rfl⟩ | ⟨rfl, rfl⟩ | ⟨rfl, rfl⟩ | ⟨rfl, rfl⟩ | ⟨rfl, rfl⟩
  · rw [exec_pack_eq] at h; cases h; exact .inl rfl
  · rw [exec_unpack_eq] at h; cases h; exact .inl rfl
  · rw [exec_raster_eq] at h; cases h; exact .inl rfl
  · rcases execInit_cases s with ⟨-, e⟩ | ⟨-, e⟩ <;> rw [e] at h <;> cases h
    exact .inl (by rw [initialised_eq]; rfl)
  · cases hinitd : s.initd with
    | false => exact .inr ⟨.inl rfl, rfl⟩
    | true =>
      rw [exec_render_eq hinitd] at h; cases h; exact .inl rfl
  · cases hinitd : s.initd with
    | false => exact .inr ⟨.inr rfl, rfl⟩
    | true =>
      obtain rfl := eq_committed_of_exec hinitd h
      exact .inl (committed_responses s)

/-- A transaction that completes answers `err = 0`, or the condition of some error held. -/
theorem performWord_answers (h : performWord w s = .next t) :
    (∃ b, t.responses = s.responses ++ [{ rdata := b, err := false }]) ∨ ∃ e : ErrorCode, e.condition w s := by
  by_cases hunmapped : Unmapped s.cfg (addrField w).toNat
  · exact .inr ⟨.badAddr, hunmapped⟩
  cases hwe : weField w with
  | false =>
    obtain ⟨b, -, hexec⟩ := execRd_of_mapped hunmapped
    rw [performWord_of_ok (decode_of_read hwe), hexec] at h
    cases h
    exact .inl ⟨b, rfl⟩
  | true =>
    by_cases haddr : addrField w = 0x00000#18
    · have hcmd := congrArg BitVec.toNat haddr
      cases hdecode : decodeCommand (wdataField w) with
      | error r => exact .inr ⟨.illegalCmd, hwe, hcmd, unassigned_of_decodeCommand_error hdecode⟩
      | ok i =>
        rw [performWord_of_ok ((decode_of_command hwe haddr).trans hdecode)] at h
        rcases responses_of_command (decodeCommand_eq_ok_iff.mp hdecode) h with ht | ⟨hop, hinitd⟩
        · exact .inl ⟨_, ht⟩
        · exact .inr ⟨.notInit, hwe, hcmd, hop, hinitd⟩
    · by_cases hreadOnly : ReadOnly s.cfg (addrField w).toNat
      · exact .inr ⟨.roWrite, hwe, hreadOnly⟩
      have hcmd : (addrField w).toNat ≠ 0 := fun h => haddr (BitVec.eq_of_toNat_eq h)
      obtain ⟨u, hexec, hu⟩ := execWr_of_writable (d := wdataField w) hcmd hunmapped hreadOnly
      rw [performWord_of_ok (decode_of_write hwe haddr), hexec] at h
      cases h
      exact .inl ⟨_, hu⟩

end Sys2Proof.Machine

open Sys2Proof Sys2Proof.Machine

/-- Settles O15, by the command table at the opcode. -/
theorem illegalCommandsOnlyRaise : Obligations.IllegalCommandsOnlyRaise := by
  refine fun s op => ⟨fun h => ?_, fun h h' => ?_⟩
  · exact performWord_of_illegal ((decode_command_number op).trans (decodeCommand_of_unassigned h))
  · obtain ⟨i, hi⟩ := exists_decodeCommand_of_assigned h h'
    have hdecode := (decode_command_number op).trans hi
    exact ⟨i, hdecode, performWord_of_ok hdecode⟩

/-- Settles O17: each condition gives its refusal, so no two hold together, and without one the answer has `err = 0`. -/
theorem errorsExactlyAsListed : Obligations.ErrorsExactlyAsListed := by
  refine ⟨by decide, fun w s => ⟨fun e => performWord_of_condition, fun e e' => condition_unique, fun t ht => ?answer⟩⟩
  by_cases hcond : ∃ e : ErrorCode, e.condition w s
  · obtain ⟨e, he⟩ := hcond
    cases (performWord_of_condition he).symm.trans ht
    exact ⟨_, rfl, iff_of_true rfl ⟨e, he⟩⟩
  · obtain ⟨b, hb⟩ := (performWord_answers ht).resolve_right hcond
    exact ⟨_, hb, iff_of_false Bool.false_ne_true hcond⟩

/-- Settles O16, by what each instruction does in a state with `INITD = 0`. -/
theorem displayCommandsNeedInit : Obligations.DisplayCommandsNeedInit := by
  refine fun s hinitd => ⟨execRender_of_uninitialised hinitd, execCommit_of_uninitialised hinitd, ?blockCommands,
    fun haccepts => ?init, fun addr hmapped => ?reads, fun addr d => execWr_of_writable⟩
  case blockCommands =>
    simp only [List.forall_mem_cons, List.not_mem_nil, false_implies, implies_true, and_true]
    exact ⟨⟨_, exec_pack_eq s, rfl, rfl⟩, ⟨_, exec_unpack_eq s, rfl, rfl⟩, ⟨_, exec_raster_eq s, rfl, rfl⟩⟩
  case init =>
    refine ⟨initialised s, execInit_of_accepts (by rwa [tokenCount_map_command]), ?_⟩
    rw [initialised_eq]
    exact ⟨rfl, rfl, rfl⟩
  case reads =>
    obtain ⟨b, -, hexec⟩ := execRd_of_mapped hmapped
    exact ⟨b, hexec⟩

end

section
/-! The error latch is not looked at, but by the two reads that show it (60_exceptions.md R152, R158). -/

namespace Sys2Proof.Machine

/-- The state with another value in its error latch. -/
def State.withErr (s : State) (code : Byte) : State := { s with err := code }

@[simp] theorem withErr_cfg (s : State) (code : Byte) : (s.withErr code).cfg = s.cfg := rfl

/-- The outcome `o` with the latch of its next state cleared, so with nothing left of what the latch held. -/
def thenClearErr (o : Host.Outcome State Fault Refusal) : Host.Outcome State Fault Refusal :=
  andThen o fun t => .next t.clearErr

theorem readLocation_withErr (s : State) (code : Byte) {l : Location} (hstatus : l ≠ .status) (herr : l ≠ .err) :
    (s.withErr code).readLocation l = s.readLocation l := by
  cases l with
  | status => exact absurd rfl hstatus
  | err => exact absurd rfl herr
  | _ => rfl

theorem locate_eq_status {c : Config} {addr : HostAddr} (h : locate c addr = .status) : addr = 0x00001#18 := by
  have haddr : addr.toNat = 0x1 := by have := locate_cases c addr; simp_all
  exact BitVec.eq_of_toNat_eq haddr

variable (s : State) (code : Byte)

theorem execRd_withErr {addr : HostAddr} (hstatus : addr ≠ 0x00001#18) (herr : addr ≠ 0x00002#18) :
    thenClearErr (exec (.rd addr) (s.withErr code)) = thenClearErr (exec (.rd addr) s) := by
  simp only [exec, execRd, withErr_cfg,
    readLocation_withErr s code (mt locate_eq_status hstatus) (mt locate_eq_err herr)]
  cases s.readLocation (locate s.cfg addr) <;> rfl

theorem execWr_withErr (addr : HostAddr) (d : Byte) :
    thenClearErr (exec (.wr addr d) (s.withErr code)) = thenClearErr (exec (.wr addr d) s) := by
  simp only [exec, execWr, withErr_cfg]
  cases locate s.cfg addr <;> rfl

theorem execInit_withErr :
    thenClearErr (exec .init (s.withErr code)) = thenClearErr (exec .init s) := by
  rcases execInit_cases s with ⟨h, e⟩ | ⟨h, e⟩
  · rw [e, execInit_of_accepts (s := s.withErr code) h]
    rfl
  · rw [e, execInit_of_stalled (s := s.withErr code) h]

theorem execRender_withErr :
    thenClearErr (exec .render (s.withErr code)) = thenClearErr (exec .render s) := by
  rcases execRender_cases s with ⟨h, e⟩ | ⟨h, e⟩
  · rw [e, execRender_of_uninitialised (s := s.withErr code) h]
    rfl
  · rw [e, execRender_next (s := s.withErr code) h]
    rfl

/-- COMMIT's cache updates go past the latch one page at a time. -/
theorem committed_withErr : committed (s.withErr code) = (committed s).withErr code := by
  have hcached : s.sentPages.foldl State.cachePage ((s.emitted (commitEmissions s)).withErr code) =
      (s.sentPages.foldl State.cachePage (s.emitted (commitEmissions s))).withErr code :=
    List.foldl_hom (State.withErr · code) fun _ _ => rfl
  exact congrArg (fun t => (t.setFfr false).respond 0x00#8) hcached

theorem execCommit_withErr :
    thenClearErr (exec .commit (s.withErr code)) = thenClearErr (exec .commit s) := by
  rcases execCommit_cases s with ⟨hinitd, e⟩ | ⟨hinitd, h, e⟩ | ⟨hinitd, h, e⟩
  · rw [e, execCommit_of_uninitialised (s := s.withErr code) hinitd]
    rfl
  · rw [e, execCommit_of_accepts (s := s.withErr code) hinitd h, committed_withErr]
    rfl
  · rw [e, execCommit_of_stalled (s := s.withErr code) hinitd h]

/-- But for the reads that show it, an instruction ends as it would have with another latch, but for the latch. -/
theorem exec_withErr {i : Instr} (hstatus : i ≠ .rd 0x00001#18) (herr : i ≠ .rd 0x00002#18) :
    thenClearErr (exec i (s.withErr code)) = thenClearErr (exec i s) := by
  cases i with
  | rd addr => exact execRd_withErr s code (mt (congrArg Instr.rd) hstatus) (mt (congrArg Instr.rd) herr)
  | wr addr d => exact execWr_withErr s code addr d
  | init => exact execInit_withErr s code
  | render => exact execRender_withErr s code
  | commit => exact execCommit_withErr s code
  | _ => rfl

/-! ### Outcomes that are equal once cleared -/

variable {t : State} {o o' : Host.Outcome State Fault Refusal}

theorem next_of_thenClearErr_eq (h : thenClearErr o' = thenClearErr o) (ho : o = .next t) :
    ∃ code', o' = .next (t.withErr code') := by
  subst ho
  cases o' with
  | next t' =>
    have hclear : t'.clearErr = t.clearErr := Host.Outcome.next.inj h
    exact ⟨t'.err, congrArg (fun u => Host.Outcome.next (u.withErr t'.err)) hclear⟩
  | fault r => cases h
  | refused r => cases h

theorem eq_fault_of_thenClearErr_eq {r : Fault} (h : thenClearErr o' = thenClearErr o) (ho : o = .fault r) :
    o' = .fault r := by
  subst ho
  cases o' with
  | next t' => cases h
  | _ => exact h

theorem eq_refused_of_thenClearErr_eq {r : Refusal} (h : thenClearErr o' = thenClearErr o) (ho : o = .refused r) :
    o' = .refused r := by
  subst ho
  cases o' with
  | next t' => cases h
  | _ => exact h

end Sys2Proof.Machine

open Sys2Proof Sys2Proof.Machine

/-- Settles O18: the two outcomes are equal once their latches are cleared. -/
theorem nothingDependsOnTheErrorLatch : Obligations.NothingDependsOnTheErrorLatch := by
  intro i s code hstatus herr
  have h := exec_withErr s code hstatus herr
  exact ⟨fun _ => next_of_thenClearErr_eq h, fun _ => eq_fault_of_thenClearErr_eq h,
    fun _ => eq_refused_of_thenClearErr_eq h⟩

end

section
/-! Resets and hazards (70_reset_and_hazards.md): what a transaction cannot undo, and a reset inside a command. -/

namespace Sys2Proof.Machine

variable {s t : State} {i : Instr} {w : HostWord}

/-- A transaction that completes is an instruction that completes, or the refusal of an illegal command. -/
theorem performWord_next_cases (h : performWord w s = .next t) :
    (∃ i, decode w = .ok i ∧ Completes s i t) ∨ t = s.raise .illegalCmd := by
  rcases performWord_cases w s with ⟨i, hi, e⟩ | ⟨op, -, e⟩ <;> rw [e] at h
  · exact .inl ⟨i, hi, completes_of_exec h⟩
  · exact .inr (Host.Outcome.next.inj h).symm

/-! ### `INITD` -/

theorem Completes.keeps_initd (h : Completes s i t) (hinitd : s.initd = true) : t.initd = true := by
  cases h with
  | init => rfl
  | _ => simp [hinitd]

theorem performWord_keeps_initd (h : performWord w s = .next t) (hinitd : s.initd = true) : t.initd = true := by
  rcases performWord_next_cases h with ⟨i, -, hi⟩ | rfl
  · exact hi.keeps_initd hinitd
  · exact hinitd

/-! ### The error latch -/

/-- Raising an error changes no latched one (60_exceptions.md R152). -/
theorem raise_err_of_latched (e : ErrorCode) (herr : s.err ≠ 0x00#8) : (s.raise e).err = s.err := by
  rw [raise_err, if_neg herr]

theorem Completes.eq_wrErr_of_cleared (h : Completes s i t) (herr : s.err ≠ 0x00#8) (ht : t.err = 0x00#8) :
    ∃ d, i = .wr 0x00002#18 d := by
  rcases h.err_cases with hkept | ⟨d, hi, -⟩ | ⟨e, rfl⟩
  · exact absurd (hkept.symm.trans ht) herr
  · exact ⟨d, hi⟩
  · exact absurd ((raise_err_of_latched e herr).symm.trans ht) herr

theorem decode_eq_wrErr_of_cleared (h : performWord w s = .next t) (herr : s.err ≠ 0x00#8) (ht : t.err = 0x00#8) :
    ∃ d, decode w = .ok (.wr 0x00002#18 d) := by
  rcases performWord_next_cases h with ⟨i, hdecode, hi⟩ | rfl
  · obtain ⟨d, rfl⟩ := hi.eq_wrErr_of_cleared herr ht
    exact ⟨d, hdecode⟩
  · exact absurd ((raise_err_of_latched _ herr).symm.trans ht) herr

/-! ### The mark of a run gone wrong -/

theorem Memory.not_filled_iff (m : Memory) (size : Nat) :
    (!Memory.filled m size) = true ↔ ∃ k, k < size ∧ Memory.read m k = none := by
  simp [Memory.filled]

theorem rendered_programFault_iff (s : State) :
    (rendered s).programFault = true ↔
      s.programFault = true ∨ ∃ k, k < s.cfg.gridSize ∧ Memory.read s.grid k = none := by
  rw [rendered, respond_programFault, markProgramFault_programFault, writeFb_programFault, Bool.or_eq_true,
    Memory.not_filled_iff]

theorem Completes.keeps_programFault (h : Completes s i t) (hmark : s.programFault = true) : t.programFault = true := by
  cases h with
  | render => exact (rendered_programFault_iff s).mpr (.inl hmark)
  | _ => simp [hmark]

theorem performEvent_keeps_programFault {e : HostEvent} (h : performEvent e s = .next t)
    (hmark : s.programFault = true) : t.programFault = true := by
  cases e with
  | request w =>
    rcases performWord_next_cases h with ⟨i, -, hi⟩ | rfl
    · exact hi.keeps_programFault hmark
    · exact hmark
  | reset =>
    cases h
    exact hmark
  | resetDuring w =>
    cases h
    rw [resetDuringWord_eq]
    exact hmark

end Sys2Proof.Machine

open Sys2Proof Sys2Proof.Machine

/-- Settles O9: no transaction clears `INITD`, and only WR ERR clears the latch. -/
theorem onlyResetClearsInitd : Obligations.OnlyResetClearsInitd := by
  intro e s t h
  cases e with
  | request w =>
    refine ⟨fun hinitd ht => ?initd, fun herr ht => ?err, nofun⟩
    case initd => exact absurd (ht.symm.trans (performWord_keeps_initd h hinitd)) Bool.false_ne_true
    case err =>
      obtain ⟨d, hdecode⟩ := decode_eq_wrErr_of_cleared h herr ht
      exact .inr (.inr ⟨w, d, rfl, hdecode⟩)
  | reset =>
    cases h
    exact ⟨fun _ _ => .inl rfl, fun _ _ => .inl rfl, fun _ => ⟨rfl, rfl, rfl, rfl⟩⟩
  | resetDuring w => exact ⟨fun _ _ => .inr ⟨w, rfl⟩, fun _ _ => .inr (.inl ⟨w, rfl⟩), nofun⟩

/-- Settles O34: the mark is RENDER's test of `GRID` added to the old mark, and every event keeps it. -/
theorem renderMarksUnwrittenCells : Obligations.RenderMarksUnwrittenCells := by
  refine ⟨fun s t hinitd h => ?_, fun _ _ _ => performEvent_keeps_programFault⟩
  cases (execRender_next hinitd).symm.trans h
  exact rendered_programFault_iff s

/-- Settles O10: the device afterwards is `Sink.afterResetDuring`, lost exactly when the command emits. -/
theorem resetInsideACommand : Obligations.ResetInsideACommand := by
  intro w s
  refine ⟨s.sink.afterResetDuring w, ?_, fun hemits k => ?_, fun hinit hcommit => ?_⟩
  · rw [performEvent, resetDuringWord_eq]
  · rw [afterResetDuring_of_emits _ hemits, lost_devByte]
  · exact afterResetDuring_of_silent _ (not_or.mpr ⟨hinit, hcommit⟩)

end
